-- ==== Sys2Proof/Word.lean ====
section
/-! DEFINITION. The word types of the block (00_scope R9): the wire's byte, the register word, the 19-bit host
offset. -/

namespace Sys2Proof

/-- The wire unit and the unit of every buffer (R9). -/
abbrev Byte := BitVec 8

/-- A host-visible register, a command word, a SHA-1 word (R9). -/
abbrev Word := BitVec 32

/-- A host offset within the block's window, 0x00000 to 0x7FFFF (R9, R80). -/
abbrev Addr := BitVec 19

end Sys2Proof
end

