-- ==== Sys2Proof/Config.lean ====
section
/-! DEFINITION. What an implementation fixes (00_scope R8) and the free value of the transport (20_memory R94). -/

namespace Sys2Proof

/-- The implementation parameters of 00_scope R8. A machine carries its own in `State.cfg`, so a statement about every
state is a statement about every value of them (log 2). -/
structure Config where
  /-- Inbound payload buffer capacity in bytes. -/
  rxCap : Nat
  /-- Outbound payload ceiling in bytes. -/
  txCap : Nat
  /-- Longest request key the deriver accepts, in bytes. -/
  keyMax : Nat
  /-- Bytes that must be left after the length fields for a masked frame's key to be read. -/
  maskAvailMin : Nat
  deriving DecidableEq, Repr

/-- The legal ranges of 00_scope R8. -/
abbrev Config.Legal (c : Config) : Prop :=
  (1 ≤ c.rxCap ∧ c.rxCap ≤ 65535) ∧ c.txCap ≤ 65535 ∧ (24 ≤ c.keyMax ∧ c.keyMax ≤ 128) ∧
    (4 ≤ c.maskAvailMin ∧ c.maskAvailMin ≤ 255)

/-- The spec's test configuration CFG_T (00_scope R8, 95_test_vectors). DESIGN CHOICE (log 2): it is the configuration
of `State.reset`; the spec calls it its choice for testing and no value of the hardware. -/
def Config.cfgT : Config := { rxCap := 300, txCap := 300, keyMax := 64, maskAvailMin := 6 }

/-- The transport's answer to one write (20_memory R94): `ok`, or `err` with the number of bytes it had sent. -/
inductive TxAnswer where
  | ok
  | err (sent : Nat)
  deriving DecidableEq, Repr, Inhabited

/-- FREE VALUE (log 5): the transport's answer to the `n`-th TxWrite for which no answer is listed in the state. No body:
nothing constrains it (R94: "which one is a free input of the step (a draw)"). -/
opaque Config.freeTxAnswer : Nat → TxAnswer

end Sys2Proof
end

