-- ==== Sys2Proof/Syntax.lean ====
section
/-! DEFINITION. The instructions: one constructor per row of spec/opcode_table.json. -/

namespace Sys2Proof

/-- The sixteen frame opcodes of 30_encoding R123, by value. -/
inductive FrameOpcode where
  | continuation | text | binary
  | reserved3 | reserved4 | reserved5 | reserved6 | reserved7
  | close | ping | pong
  | reservedB | reservedC | reservedD | reservedE | reservedF
  deriving DecidableEq, Repr

/-- The two opcode spaces of 30_encoding.

The first sixteen constructors are command words (R130, R131): the operands are the fields the command reads, and the
bits it ignores are no part of the instruction (R133, log 11). `len` and `n` are the operand ARG as a number (R132).

The last sixteen are the base header byte B0 of a wire frame (R121, R123) with FIN and RSV1 to RSV3; the bytes of the frame
after B0 are operands that DECODE reads from the receive stream (log 10). -/
inductive Instr where
  | reservedCmd0
  | decode
  | drain
  | encode (op : FrameOpcode) (len : Nat)
  | flush
  | setMaskKey
  | deriveKey (n : Nat)
  | clear
  | reservedCmd8
  | reservedCmd9
  | reservedCmdA
  | reservedCmdB
  | reservedCmdC
  | reservedCmdD
  | reservedCmdE
  | reservedCmdF
  | frameContinuation (fin rsv1 rsv2 rsv3 : Bool)
  | frameText (fin rsv1 rsv2 rsv3 : Bool)
  | frameBinary (fin rsv1 rsv2 rsv3 : Bool)
  | frameReserved3 (fin rsv1 rsv2 rsv3 : Bool)
  | frameReserved4 (fin rsv1 rsv2 rsv3 : Bool)
  | frameReserved5 (fin rsv1 rsv2 rsv3 : Bool)
  | frameReserved6 (fin rsv1 rsv2 rsv3 : Bool)
  | frameReserved7 (fin rsv1 rsv2 rsv3 : Bool)
  | frameClose (fin rsv1 rsv2 rsv3 : Bool)
  | framePing (fin rsv1 rsv2 rsv3 : Bool)
  | framePong (fin rsv1 rsv2 rsv3 : Bool)
  | frameReservedB (fin rsv1 rsv2 rsv3 : Bool)
  | frameReservedC (fin rsv1 rsv2 rsv3 : Bool)
  | frameReservedD (fin rsv1 rsv2 rsv3 : Bool)
  | frameReservedE (fin rsv1 rsv2 rsv3 : Bool)
  | frameReservedF (fin rsv1 rsv2 rsv3 : Bool)
  deriving DecidableEq, Repr

end Sys2Proof
end

