-- ==== Sys2Proof/WellFormed.lean ====
section
/-! DEFINITION. Which instructions have an encoding: ARG is a 16-bit field (30_encoding R130, R132; R127: a length above
65535 cannot be named). -/

namespace Sys2Proof

/-- The instruction has a word: its number operand fits the 16-bit ARG field (R130). -/
def WellFormed : Instr → Bool
  | .encode _ len => decide (len < 65536)
  | .deriveKey n => decide (n < 65536)
  | .reservedCmd0 | .decode | .drain | .flush | .setMaskKey | .clear => true
  | .reservedCmd8 | .reservedCmd9 | .reservedCmdA | .reservedCmdB => true
  | .reservedCmdC | .reservedCmdD | .reservedCmdE | .reservedCmdF => true
  | .frameContinuation _ _ _ _ | .frameText _ _ _ _ | .frameBinary _ _ _ _ => true
  | .frameReserved3 _ _ _ _ | .frameReserved4 _ _ _ _ | .frameReserved5 _ _ _ _ => true
  | .frameReserved6 _ _ _ _ | .frameReserved7 _ _ _ _ => true
  | .frameClose _ _ _ _ | .framePing _ _ _ _ | .framePong _ _ _ _ => true
  | .frameReservedB _ _ _ _ | .frameReservedC _ _ _ _ | .frameReservedD _ _ _ _ => true
  | .frameReservedE _ _ _ _ | .frameReservedF _ _ _ _ => true

end Sys2Proof
end

