-- ==== Sys2Proof/Decode.lean ====
section
/-! DEFINITION. The decoder of both opcode spaces, and after it the encoder (30_encoding). -/

namespace Sys2Proof

/-! ### Frame opcodes (R123) -/

/-- The 4-bit value of a frame opcode (R123). -/
def FrameOpcode.bits : FrameOpcode → BitVec 4
  | .continuation => 0x0#4
  | .text => 0x1#4
  | .binary => 0x2#4
  | .reserved3 => 0x3#4
  | .reserved4 => 0x4#4
  | .reserved5 => 0x5#4
  | .reserved6 => 0x6#4
  | .reserved7 => 0x7#4
  | .close => 0x8#4
  | .ping => 0x9#4
  | .pong => 0xA#4
  | .reservedB => 0xB#4
  | .reservedC => 0xC#4
  | .reservedD => 0xD#4
  | .reservedE => 0xE#4
  | .reservedF => 0xF#4

/-- The frame opcode of a 4-bit value (R123): every value has one. -/
def FrameOpcode.ofBits (b : BitVec 4) : FrameOpcode :=
  if b = 0x0#4 then .continuation
  else if b = 0x1#4 then .text
  else if b = 0x2#4 then .binary
  else if b = 0x3#4 then .reserved3
  else if b = 0x4#4 then .reserved4
  else if b = 0x5#4 then .reserved5
  else if b = 0x6#4 then .reserved6
  else if b = 0x7#4 then .reserved7
  else if b = 0x8#4 then .close
  else if b = 0x9#4 then .ping
  else if b = 0xA#4 then .pong
  else if b = 0xB#4 then .reservedB
  else if b = 0xC#4 then .reservedC
  else if b = 0xD#4 then .reservedD
  else if b = 0xE#4 then .reservedE
  else .reservedF

/-- The wire instruction of a frame opcode and its FIN and RSV bits. -/
def frameInstr (op : FrameOpcode) (fin rsv1 rsv2 rsv3 : Bool) : Instr :=
  match op with
  | .continuation => .frameContinuation fin rsv1 rsv2 rsv3
  | .text => .frameText fin rsv1 rsv2 rsv3
  | .binary => .frameBinary fin rsv1 rsv2 rsv3
  | .reserved3 => .frameReserved3 fin rsv1 rsv2 rsv3
  | .reserved4 => .frameReserved4 fin rsv1 rsv2 rsv3
  | .reserved5 => .frameReserved5 fin rsv1 rsv2 rsv3
  | .reserved6 => .frameReserved6 fin rsv1 rsv2 rsv3
  | .reserved7 => .frameReserved7 fin rsv1 rsv2 rsv3
  | .close => .frameClose fin rsv1 rsv2 rsv3
  | .ping => .framePing fin rsv1 rsv2 rsv3
  | .pong => .framePong fin rsv1 rsv2 rsv3
  | .reservedB => .frameReservedB fin rsv1 rsv2 rsv3
  | .reservedC => .frameReservedC fin rsv1 rsv2 rsv3
  | .reservedD => .frameReservedD fin rsv1 rsv2 rsv3
  | .reservedE => .frameReservedE fin rsv1 rsv2 rsv3
  | .reservedF => .frameReservedF fin rsv1 rsv2 rsv3

/-! ### Fields -/

/-- CMDOP, bits 3:0 of a command word (R130). -/
def cmdOp (w : Word) : BitVec 4 := w.extractLsb' 0 4

/-- FOPC, bits 7:4 of a command word (R130). -/
def cmdFopc (w : Word) : BitVec 4 := w.extractLsb' 4 4

/-- ARG, bits 31:16 of a command word, as the unsigned number the command uses (R132). -/
def cmdArg (w : Word) : Nat := (w.extractLsb' 16 16).toNat

/-- FIN, bit 7 of B0 (R121). -/
def b0Fin (b : Byte) : Bool := b.getLsbD 7

/-- RSV1, bit 6 of B0 (R121). -/
def b0Rsv1 (b : Byte) : Bool := b.getLsbD 6

/-- RSV2, bit 5 of B0 (R121). -/
def b0Rsv2 (b : Byte) : Bool := b.getLsbD 5

/-- RSV3, bit 4 of B0 (R121). -/
def b0Rsv3 (b : Byte) : Bool := b.getLsbD 4

/-- OPCODE, bits 3:0 of B0 (R121, R123). -/
def b0Opcode (b : Byte) : FrameOpcode := FrameOpcode.ofBits (b.extractLsb' 0 4)

/-! ### Decoding -/

/-- The command a 32-bit CMD word names (R131). Every word names one; the bits a command ignores do not enter (R133). -/
def decodeCommand (w : Word) : Instr :=
  if cmdOp w = 0x0#4 then .reservedCmd0
  else if cmdOp w = 0x1#4 then .decode
  else if cmdOp w = 0x2#4 then .drain
  else if cmdOp w = 0x3#4 then .encode (FrameOpcode.ofBits (cmdFopc w)) (cmdArg w)
  else if cmdOp w = 0x4#4 then .flush
  else if cmdOp w = 0x5#4 then .setMaskKey
  else if cmdOp w = 0x6#4 then .deriveKey (cmdArg w)
  else if cmdOp w = 0x7#4 then .clear
  else if cmdOp w = 0x8#4 then .reservedCmd8
  else if cmdOp w = 0x9#4 then .reservedCmd9
  else if cmdOp w = 0xA#4 then .reservedCmdA
  else if cmdOp w = 0xB#4 then .reservedCmdB
  else if cmdOp w = 0xC#4 then .reservedCmdC
  else if cmdOp w = 0xD#4 then .reservedCmdD
  else if cmdOp w = 0xE#4 then .reservedCmdE
  else .reservedCmdF

/-- The wire instruction of a base header byte B0 (R121, R123). Every byte is one. -/
def decodeWire (b0 : Byte) : Instr :=
  frameInstr (b0Opcode b0) (b0Fin b0) (b0Rsv1 b0) (b0Rsv2 b0) (b0Rsv3 b0)

/-- An instruction's bits, in the opcode space they belong to (30_encoding: the command word and the wire frame). -/
inductive Code where
  | command (w : Word)
  | wire (b0 : Byte)
  deriving DecidableEq, Repr

/-- Why bits are no instruction. -/
inductive DecodeError where
  /-- Neither a 32-bit command word (R130) nor an 8-bit base header byte (R121). -/
  | noSuchSize (nbits : Nat)
  /-- The number has more bits than the size it is given for. -/
  | doesNotFit (nbits w : Nat)
  deriving DecidableEq, Repr

/-- The decoder: the instruction of a code. -/
def decode : Code → Instr
  | .command w => decodeCommand w
  | .wire b0 => decodeWire b0

/-- The code of `nbits` bits whose value is `w`, bit 0 the least significant (R10). -/
def codeOfBits (nbits w : Nat) : Except DecodeError Code :=
  if nbits = 32 then
    if w < 2 ^ 32 then .ok (.command (BitVec.ofNat 32 w)) else .error (.doesNotFit nbits w)
  else if nbits = 8 then
    if w < 2 ^ 8 then .ok (.wire (BitVec.ofNat 8 w)) else .error (.doesNotFit nbits w)
  else .error (.noSuchSize nbits)

/-- The instruction of `nbits` bits whose value is `w`, or by name why there is none. -/
def decodeBits (nbits w : Nat) : Except DecodeError Instr :=
  match codeOfBits nbits w with
  | .ok c => .ok (decode c)
  | .error e => .error e

/-- What the decoder reads from an instruction whose bits are `w`, numbered as spec/opcode_table.json numbers them. -/
def decodeTableWord (nbits w : Nat) : Option Instr :=
  match decodeBits nbits w with
  | .ok i => some i
  | .error _ => none

/-! ### Encoding -/

/-- The command word with the given CMDOP, FOPC and ARG (R134: `(ARG << 16) OR (FOPC << 4) OR CMDOP`); bits 15:8 are 0, as
software writes them (R130). -/
def commandWord (op fopc : BitVec 4) (arg : Nat) : Word :=
  (BitVec.ofNat 32 arg <<< 16) ||| (fopc.setWidth 32 <<< 4) ||| op.setWidth 32

/-- The base header byte B0 (R121): FIN, RSV1, RSV2, RSV3 from bit 7 down, then OPCODE. -/
def headerByte (fin rsv1 rsv2 rsv3 : Bool) (op : FrameOpcode) : Byte :=
  (BitVec.ofBool fin ++ BitVec.ofBool rsv1 ++ BitVec.ofBool rsv2 ++ BitVec.ofBool rsv3 ++ op.bits : BitVec 8)

/-- The code of an instruction (R131, R134 for the commands, R121 for B0); fields a command ignores are written 0. -/
def encode : Instr → Code
  | .reservedCmd0 => .command (commandWord 0x0#4 0 0)
  | .decode => .command (commandWord 0x1#4 0 0)
  | .drain => .command (commandWord 0x2#4 0 0)
  | .encode op len => .command (commandWord 0x3#4 op.bits len)
  | .flush => .command (commandWord 0x4#4 0 0)
  | .setMaskKey => .command (commandWord 0x5#4 0 0)
  | .deriveKey n => .command (commandWord 0x6#4 0 n)
  | .clear => .command (commandWord 0x7#4 0 0)
  | .reservedCmd8 => .command (commandWord 0x8#4 0 0)
  | .reservedCmd9 => .command (commandWord 0x9#4 0 0)
  | .reservedCmdA => .command (commandWord 0xA#4 0 0)
  | .reservedCmdB => .command (commandWord 0xB#4 0 0)
  | .reservedCmdC => .command (commandWord 0xC#4 0 0)
  | .reservedCmdD => .command (commandWord 0xD#4 0 0)
  | .reservedCmdE => .command (commandWord 0xE#4 0 0)
  | .reservedCmdF => .command (commandWord 0xF#4 0 0)
  | .frameContinuation f r1 r2 r3 => .wire (headerByte f r1 r2 r3 .continuation)
  | .frameText f r1 r2 r3 => .wire (headerByte f r1 r2 r3 .text)
  | .frameBinary f r1 r2 r3 => .wire (headerByte f r1 r2 r3 .binary)
  | .frameReserved3 f r1 r2 r3 => .wire (headerByte f r1 r2 r3 .reserved3)
  | .frameReserved4 f r1 r2 r3 => .wire (headerByte f r1 r2 r3 .reserved4)
  | .frameReserved5 f r1 r2 r3 => .wire (headerByte f r1 r2 r3 .reserved5)
  | .frameReserved6 f r1 r2 r3 => .wire (headerByte f r1 r2 r3 .reserved6)
  | .frameReserved7 f r1 r2 r3 => .wire (headerByte f r1 r2 r3 .reserved7)
  | .frameClose f r1 r2 r3 => .wire (headerByte f r1 r2 r3 .close)
  | .framePing f r1 r2 r3 => .wire (headerByte f r1 r2 r3 .ping)
  | .framePong f r1 r2 r3 => .wire (headerByte f r1 r2 r3 .pong)
  | .frameReservedB f r1 r2 r3 => .wire (headerByte f r1 r2 r3 .reservedB)
  | .frameReservedC f r1 r2 r3 => .wire (headerByte f r1 r2 r3 .reservedC)
  | .frameReservedD f r1 r2 r3 => .wire (headerByte f r1 r2 r3 .reservedD)
  | .frameReservedE f r1 r2 r3 => .wire (headerByte f r1 r2 r3 .reservedE)
  | .frameReservedF f r1 r2 r3 => .wire (headerByte f r1 r2 r3 .reservedF)

end Sys2Proof
end

