-- ==== Sys2Proof/Machine/State.lean ====
section
/-! DEFINITION. The machine's state as plain data (10_state, 20_memory), the reasons a step can stop, and the state after
reset (70_reset_and_hazards R400). -/

namespace Sys2Proof.Machine

/-- A buffer's written bytes as (index, byte) pairs. An index that is not listed holds no value (20_memory R88). -/
abbrev Memory := List Host.Cell

/-- The canonical form of a buffer: indices strictly rising. An unlisted index has no value, so no entry can repeat it. -/
abbrev Memory.wf (m : Memory) : Prop := m.Pairwise (fun a b => a.1 < b.1)

/-- The five internal buffers (10_state R49 to R53). -/
inductive Buffer where
  | pin | txbuf | rxbuf | keyin | accept
  deriving DecidableEq, Repr

/-- The result codes of STATUS.ERR (60_exceptions R360); their numbers are `Status.code`. -/
inductive Status where
  | ok | connectionNotStarted | sendBusy | payloadTooLarge | truncatedRead | unsupportedLength
  | missingMaskKey | idle | transportError | badCommand | keyTooLong
  deriving DecidableEq, Repr

/-- One input from outside the block (00_scope R13, R14; 70_reset R400). One step takes one. -/
inductive Event where
  /-- `MemRead(off, width)` by the host (20_memory R82, R83, R85). -/
  | read (width : Nat) (off : Addr)
  /-- `MemWrite(off, width, value)` by the host (R82, R84, R87). A 1-byte write carries its byte in `value[7:0]`. -/
  | write (width : Nat) (off : Addr) (value : Word)
  /-- The peer appends bytes to the receive stream (R93). -/
  | peer (bytes : List Byte)
  /-- Power-on reset (R400). -/
  | powerOn
  deriving DecidableEq, Repr

/-- Why the machine stops. Both are the model faults of 60_exceptions R377: no hardware status, never in STATUS.ERR. -/
inductive Fault where
  /-- An illegal host access (20_memory R82). Raised by `hostRead` and `hostWrite` of HostBus.lean. SAFE: the block answers
  such an access with a bus error and changes nothing, and the model says nothing about what follows. -/
  | hostBusError
  /-- A read of a buffer byte no write has given a value since power-on (R88). Raised by `hostRead`, and by ENCODE (PIN),
  DERIVE_KEY (KEYIN) and FLUSH (TXBUF, in states no run reaches). SAFE: on hardware the read returns an unspecified
  byte, and the model gives it none. -/
  | unwritten (buffer : Buffer) (index : Nat)
  deriving DecidableEq, Repr

/-- Why a step has no meaning. -/
inductive Refusal where
  /-- An instruction without a meaning, by its mnemonic. No arm of `exec` answers it: every instruction has its meaning.
  SAFE. -/
  | notModelled (mnemonic : String)
  /-- A host access other than a STATUS read while STATUS.CMD_ACTIVE = 1: it "has no meaning in this spec" (70_reset R420;
  93_implementation_defined item 3: refuse). Raised by `hostEvent` of HostBus.lean, only in states no run reaches
  (10_state R36). SAFE. -/
  | accessWhileActive
  deriving DecidableEq, Repr

/-- The state of the block and of the streams and inputs around it. -/
structure State where
  /-- The implementation parameters (00_scope R8). No step changes them. -/
  cfg : Config
  /-- CTRL.MASK_EN (R33). -/
  maskEn : Bool
  /-- CTRL.STARTED (R33). -/
  started : Bool
  /-- STATUS.CMD_ACTIVE (R36). -/
  cmdActive : Bool
  /-- STATUS.TX_BUSY (R37). -/
  txBusy : Bool
  /-- STATUS.RX_VALID (R38). -/
  rxValid : Bool
  /-- STATUS.MASK_FRESH (R39). -/
  maskFresh : Bool
  /-- STATUS.ERR (R41). -/
  err : Status
  /-- MASK_KEY, k[0] in bits 31:24 (R42). -/
  maskKey : Word
  /-- KEY_STAGE (R43). -/
  keyStage : Word
  /-- RX_HDR[15:0], B0 : B1 (R44). -/
  rxHdr : BitVec 16
  /-- RX_DLEN[15:0] (R45). -/
  rxDlen : BitVec 16
  /-- RX_LEN[15:0] (R46). -/
  rxLen : BitVec 16
  /-- RX_MKEY, packed as MASK_KEY (R47). -/
  rxMkey : Word
  /-- TX_LEN[16:0] (R48). -/
  txLen : BitVec 17
  /-- PIN, the outbound payload staging buffer (R49). -/
  pin : Memory
  /-- TXBUF, the outbound frame buffer (R50). -/
  txbuf : Memory
  /-- RXBUF, the inbound payload buffer (R51). -/
  rxbuf : Memory
  /-- KEYIN, the request-key input buffer (R52). -/
  keyin : Memory
  /-- ACCEPT, the deriver's output buffer (R53). -/
  accept : Memory
  /-- RXS, the receive stream, oldest byte first (R54). -/
  rxs : List Byte
  /-- TXS, the transmit log, first byte sent first (R55). -/
  txs : List Byte
  /-- The MODEL's own: the inputs still to come, oldest first (log 1). -/
  pending : List Event
  /-- The MODEL's own: what the host's reads answered, oldest first (log 9). -/
  hostReads : List Word
  /-- The MODEL's own: the transport's answers to the TxWrites to come, where the environment fixes them (log 5). -/
  txAnswers : List TxAnswer
  /-- The MODEL's own: how many free transport answers have been drawn (log 5). -/
  txDraws : Nat
  deriving DecidableEq, Repr

/-- The machine right after power-on reset with the given parameters (R400): every register at the value of R32, every
buffer byte unwritten, both streams empty as in the spec's start state S0 (log 12), and nothing pending. -/
def State.resetWith (c : Config) : State where
  cfg := c
  maskEn := false
  started := false
  cmdActive := false
  txBusy := false
  rxValid := false
  maskFresh := false
  err := .ok
  maskKey := 0
  keyStage := 0
  rxHdr := 0
  rxDlen := 0
  rxLen := 0
  rxMkey := 0
  txLen := 0
  pin := []
  txbuf := []
  rxbuf := []
  keyin := []
  accept := []
  rxs := []
  txs := []
  pending := []
  hostReads := []
  txAnswers := []
  txDraws := 0

/-- The machine right after reset, under the spec's test configuration (log 2). -/
def State.reset : State := State.resetWith Config.cfgT

end Sys2Proof.Machine
end

