-- ==== Sys2Proof/Machine/Ops.lean ====
section
/-! DEFINITION. The named operations over buffers, streams and the result code (00_scope R11; 20_memory R88 to R95). -/

namespace Sys2Proof.Machine

/-- How a meaning ends. -/
abbrev Result := Host.Outcome State Fault Refusal

/-! ### Buffers -/

/-- The byte at an index, or none where no write has given it a value (R88). -/
def Memory.read : Memory → Nat → Option Byte
  | [], _ => none
  | (k, v) :: rest, i => if i = k then some v else Memory.read rest i

/-- Write one byte, keeping the indices rising. -/
def Memory.write : Memory → Nat → Byte → Memory
  | [], i, b => [(i, b)]
  | (k, v) :: rest, i, b =>
    if i < k then (i, b) :: (k, v) :: rest
    else if i = k then (i, b) :: rest
    else (k, v) :: Memory.write rest i b

/-- Write bytes at rising indices from `i`. -/
def Memory.writeBytes : Memory → Nat → List Byte → Memory
  | m, _, [] => m
  | m, i, b :: bs => Memory.writeBytes (Memory.write m i b) (i + 1) bs

/-- Read `n` bytes from index `i`, or the first index that holds no value (R88). -/
def Memory.readBytes (m : Memory) : (i n : Nat) → Except Nat (List Byte)
  | _, 0 => .ok []
  | i, n + 1 =>
    match Memory.read m i with
    | none => .error i
    | some b =>
      match Memory.readBytes m (i + 1) n with
      | .error j => .error j
      | .ok bs => .ok (b :: bs)

/-- The buffer a name stands for. -/
def State.buffer (s : State) : Buffer → Memory
  | .pin => s.pin
  | .txbuf => s.txbuf
  | .rxbuf => s.rxbuf
  | .keyin => s.keyin
  | .accept => s.accept

/-- `BUF[i]`, one byte of a buffer (R11, R85, R88). -/
def State.readBuf (s : State) (b : Buffer) (i : Nat) : Option Byte := Memory.read (s.buffer b) i

/-- How many bytes a buffer has (R49 to R53). -/
def bufferCapacity (c : Config) : Buffer → Nat
  | .pin => c.txCap
  | .txbuf => c.txCap + 8
  | .rxbuf => c.rxCap
  | .keyin => c.keyMax
  | .accept => 28

/-! ### How a command begins and ends -/

/-- The host's write of CMD starts a command: CMD_ACTIVE is 1 until it ends (R36). -/
def State.beginCommand (s : State) : State := { s with cmdActive := true }

/-- `raise c`, the one operation for an exceptional condition (R11, R362): the command ends, STATUS.ERR takes the code, and
every change made before stands. There is no trap entry and no return (R368, R369). -/
def State.raise (c : Status) (s : State) : State := { s with err := c, cmdActive := false }

/-- `finish` (R11): the command ends with ERR = OK. -/
def State.finish (s : State) : State := State.raise .ok s

/-! ### The streams -/

/-- A peer step (R93): bytes appended at the end of the receive stream. -/
def State.peerAppend (bytes : List Byte) (s : State) : State := { s with rxs := s.rxs ++ bytes }

/-- The transport's answer to the next TxWrite (R94): the next listed one, else a free value (log 5). -/
def State.drawTxAnswer (s : State) : TxAnswer × State :=
  match s.txAnswers with
  | a :: rest => (a, { s with txAnswers := rest })
  | [] => (Config.freeTxAnswer s.txDraws, { s with txDraws := s.txDraws + 1 })

/-- The bytes the transport sends of `bytes` under an answer (R94): all on `ok`, a proper prefix on `err`. A listed count
that is no proper prefix's length stands for the longest one (log 6). -/
def sentBytes (a : TxAnswer) (bytes : List Byte) : List Byte :=
  match a with
  | .ok => bytes
  | .err j => bytes.take (min j (bytes.length - 1))

/-- `TxWrite(bytes)` (R94): TXS grows by what was sent; the answer is returned. -/
def State.txWrite (bytes : List Byte) (s : State) : TxAnswer × State :=
  let (a, s) := s.drawTxAnswer
  (a, { s with txs := s.txs ++ sentBytes a bytes })

/-! ### Reset -/

/-- Power-on reset of a running machine (R400): registers and buffers as after power-on; the streams belong to the
transport and are not reset. The inputs still to come and the model's own lists are kept (log 13). -/
def State.powerOn (s : State) : State :=
  { State.resetWith s.cfg with
    rxs := s.rxs
    txs := s.txs
    pending := s.pending
    hostReads := s.hostReads
    txAnswers := s.txAnswers
    txDraws := s.txDraws }

end Sys2Proof.Machine
end

