-- ==== Sys2Proof/Machine/Operands.lean ====
section
/-! DEFINITION. The operand forms: the wire header's second byte and lengths, and the packing of mask keys
(30_encoding R122, R124 to R127; 20_memory R96, R97). -/

namespace Sys2Proof.Machine

/-- Two bytes as a 16-bit value, the first in the more significant position (00_scope R10). -/
def bigEndian16 (a b : Byte) : BitVec 16 := (a.setWidth 16 <<< 8) ||| b.setWidth 16

/-- Four bytes as a 32-bit word, the first in the most significant position (00_scope R10). -/
def bigEndian32 (a b c d : Byte) : Word :=
  (a.setWidth 32 <<< 24) ||| (b.setWidth 32 <<< 16) ||| (c.setWidth 32 <<< 8) ||| d.setWidth 32

/-- MASK, bit 7 of B1 (R122). -/
def b1Masked (b1 : Byte) : Bool := b1.getLsbD 7

/-- LEN7, bits 6:0 of B1 (R122). -/
def b1Len7 (b1 : Byte) : Nat := (b1.extractLsb' 0 7).toNat

/-- The second header byte with the given MASK and LEN7 (R122). -/
def lengthByte (masked : Bool) (len7 : Nat) : Byte :=
  ((BitVec.ofBool masked).setWidth 8 <<< 7) ||| (BitVec.ofNat 7 len7).setWidth 8

/-- The extended length `E0 * 256 + E1` (R126): big-endian. -/
def extendedLength (e0 e1 : Byte) : Nat := e0.toNat * 256 + e1.toNat

/-- The length fields of an outbound frame (R127): one byte up to 125, else 126 and two big-endian bytes. -/
def lengthFields (masked : Bool) (len : Nat) : List Byte :=
  if len ≤ 125 then [lengthByte masked len]
  else [lengthByte masked 126, BitVec.ofNat 8 (len / 256), BitVec.ofNat 8 len]

/-- Four key bytes in wire order as a register (R97): k[0] in bits 31:24. -/
def packKey (k0 k1 k2 k3 : Byte) : Word := bigEndian32 k0 k1 k2 k3

/-- `k[j]` of a packed key (R42, R97). -/
def keyByte (k : Word) (j : Nat) : Byte :=
  match j with
  | 0 => k.extractLsb' 24 8
  | 1 => k.extractLsb' 16 8
  | 2 => k.extractLsb' 8 8
  | _ => k.extractLsb' 0 8

/-- The four bytes of a packed key in wire order (R97). -/
def keyBytes (k : Word) : List Byte := [keyByte k 0, keyByte k 1, keyByte k 2, keyByte k 3]

/-- The header's size (R124, R125), from B1 where LEN7 is not 127. -/
def headerSize (b1 : Byte) : Nat :=
  2 + (if b1Len7 b1 = 126 then 2 else 0) + (if b1Masked b1 then 4 else 0)

end Sys2Proof.Machine
end

