-- ==== Sys2Proof/Machine/Flags.lean ====
section
/-! DEFINITION. STATUS and CTRL as words, and every bit the block computes (10_state R33, R35 to R41; 60_exceptions
R360). -/

namespace Sys2Proof.Machine

/-- The 4-bit code of a result (R360). -/
def Status.code : Status → BitVec 4
  | .ok => 0x0#4
  | .connectionNotStarted => 0x1#4
  | .sendBusy => 0x2#4
  | .payloadTooLarge => 0x3#4
  | .truncatedRead => 0x4#4
  | .unsupportedLength => 0x5#4
  | .missingMaskKey => 0x6#4
  | .idle => 0x7#4
  | .transportError => 0x8#4
  | .badCommand => 0x9#4
  | .keyTooLong => 0xA#4

/-- STATUS.REFRESH_DUE, computed: NOT TX_BUSY AND NOT MASK_FRESH (R40). -/
def State.refreshDue (s : State) : Bool := !s.txBusy && !s.maskFresh

/-- STATUS (R35): ERR in bits 11:8, REFRESH_DUE, MASK_FRESH, RX_VALID, TX_BUSY, CMD_ACTIVE in bits 4 to 0, the rest 0. -/
def State.statusWord (s : State) : Word :=
  (0#20 ++ s.err.code ++ 0#3 ++ BitVec.ofBool s.refreshDue ++ BitVec.ofBool s.maskFresh ++
    BitVec.ofBool s.rxValid ++ BitVec.ofBool s.txBusy ++ BitVec.ofBool s.cmdActive : BitVec 32)

/-- CTRL (R33): STARTED in bit 1, MASK_EN in bit 0, the rest 0. -/
def State.ctrlWord (s : State) : Word :=
  (0#30 ++ BitVec.ofBool s.started ++ BitVec.ofBool s.maskEn : BitVec 32)

/-- A host write of CTRL (20_memory R84): bits 1 and 0 are stored, the rest ignored. -/
def State.writeCtrl (v : Word) (s : State) : State :=
  { s with maskEn := v.getLsbD 0, started := v.getLsbD 1 }

/-- RX_HDR.FIN (R44). -/
def State.rxFin (s : State) : Bool := s.rxHdr.getLsbD 15

/-- RX_HDR.RSV1 (R44). -/
def State.rxRsv1 (s : State) : Bool := s.rxHdr.getLsbD 14

/-- RX_HDR.RSV2 (R44). -/
def State.rxRsv2 (s : State) : Bool := s.rxHdr.getLsbD 13

/-- RX_HDR.RSV3 (R44). -/
def State.rxRsv3 (s : State) : Bool := s.rxHdr.getLsbD 12

/-- RX_HDR.OPCODE (R44). -/
def State.rxOpcode (s : State) : FrameOpcode := FrameOpcode.ofBits (s.rxHdr.extractLsb' 8 4)

/-- RX_HDR.MASKED (R44). -/
def State.rxMasked (s : State) : Bool := s.rxHdr.getLsbD 7

/-- RX_HDR.LEN7 (R44). -/
def State.rxLen7 (s : State) : Nat := (s.rxHdr.extractLsb' 0 7).toNat

end Sys2Proof.Machine
end

