-- ==== Sys2Proof/Machine/Control.lean ====
section
/-! DEFINITION. CLEAR and the reserved commands (44_control). -/

namespace Sys2Proof.Machine

/-- What CLEAR resets (R342); everything else is kept (R343). -/
def State.clear (s : State) : State :=
  { s with
    txBusy := false, txLen := 0
    rxValid := false, rxLen := 0
    rxHdr := 0, rxDlen := 0, rxMkey := 0
    maskKey := 0, maskFresh := false
    started := false }

/-- CLEAR (R342). -/
def execClear (s : State) : Result := .next s.clear.finish

/-- A reserved command (R345): BadCommand and no other change. -/
def badCommand (s : State) : Result := .next (s.raise .badCommand)

/-- CMDOP 0x0 (R345). -/
def execReservedCmd0 (s : State) : Result := badCommand s

/-- CMDOP 0x8 (R345). -/
def execReservedCmd8 (s : State) : Result := badCommand s

/-- CMDOP 0x9 (R345). -/
def execReservedCmd9 (s : State) : Result := badCommand s

/-- CMDOP 0xA (R345). -/
def execReservedCmdA (s : State) : Result := badCommand s

/-- CMDOP 0xB (R345). -/
def execReservedCmdB (s : State) : Result := badCommand s

/-- CMDOP 0xC (R345). -/
def execReservedCmdC (s : State) : Result := badCommand s

/-- CMDOP 0xD (R345). -/
def execReservedCmdD (s : State) : Result := badCommand s

/-- CMDOP 0xE (R345). -/
def execReservedCmdE (s : State) : Result := badCommand s

/-- CMDOP 0xF (R345). -/
def execReservedCmdF (s : State) : Result := badCommand s

end Sys2Proof.Machine
end

