-- ==== Sys2Proof/Machine/HostBus.lean ====
section
/-! DEFINITION. The host window: the address map, legal accesses, and what reads and writes do (20_memory R80 to R87). -/

namespace Sys2Proof.Machine

/-- The host-visible registers (10_state R32). -/
inductive Register where
  | ctrl | cmd | status | maskKey | keyStage | rxHdr | rxDlen | rxLen | rxMkey | txLen
  deriving DecidableEq, Repr

/-- What a host access of a given width and offset reaches (R81, R82). -/
inductive Target where
  | register (r : Register)
  | byte (b : Buffer) (i : Nat)
  | reserved
  | illegal
  deriving DecidableEq, Repr

/-- The register at an offset (R32). -/
def registerAt (a : Nat) : Option Register :=
  if a = 0x000 then some .ctrl
  else if a = 0x004 then some .cmd
  else if a = 0x008 then some .status
  else if a = 0x00C then some .maskKey
  else if a = 0x010 then some .keyStage
  else if a = 0x014 then some .rxHdr
  else if a = 0x018 then some .rxDlen
  else if a = 0x01C then some .rxLen
  else if a = 0x020 then some .rxMkey
  else if a = 0x024 then some .txLen
  else none

/-- An access to the register space, 0x000 to 0x0FF (R81, R82): 4 bytes, aligned. -/
def registerSpace (width a : Nat) : Target :=
  if width = 4 ∧ a % 4 = 0 then
    match registerAt a with
    | some r => .register r
    | none => .reserved
  else .illegal

/-- An access to index `i` of a buffer's window (R81, R82): 1 byte; from the buffer's capacity on the window is reserved.
DEDUCED (log 7): an access of 4 bytes is illegal in the whole window, the reserved part included. -/
def bufferWindow (c : Config) (b : Buffer) (width i : Nat) : Target :=
  if width = 1 then (if i < bufferCapacity c b then .byte b i else .reserved) else .illegal

/-- An access to a reserved range outside the register space (R81, R82): 1 byte, or 4 aligned bytes. -/
def reservedRange (width a : Nat) : Target :=
  if width = 1 ∨ (width = 4 ∧ a % 4 = 0) then .reserved else .illegal

/-- The host window's map (R81) with the legality of an access (R82). -/
def target (c : Config) (width : Nat) (off : Addr) : Target :=
  let a := off.toNat
  if a < 0x00100 then registerSpace width a
  else if a < 0x00180 then bufferWindow c .keyin width (a - 0x00100)
  else if a < 0x0019C then bufferWindow c .accept width (a - 0x00180)
  else if a < 0x20000 then reservedRange width a
  else if a < 0x30000 then bufferWindow c .pin width (a - 0x20000)
  else if a < 0x40000 then reservedRange width a
  else if a < 0x60000 then bufferWindow c .txbuf width (a - 0x40000)
  else if a < 0x70000 then bufferWindow c .rxbuf width (a - 0x60000)
  else reservedRange width a

/-- What a register reads as (R83). -/
def State.readRegister (s : State) : Register → Word
  | .ctrl => s.ctrlWord
  | .cmd => 0
  | .status => s.statusWord
  | .maskKey => s.maskKey
  | .keyStage => s.keyStage
  | .rxHdr => s.rxHdr.setWidth 32
  | .rxDlen => s.rxDlen.setWidth 32
  | .rxLen => s.rxLen.setWidth 32
  | .rxMkey => s.rxMkey
  | .txLen => s.txLen.setWidth 32

/-- The host has its answer to a read; the block's state does not change (R102). -/
def State.answer (v : Word) (s : State) : State := { s with hostReads := s.hostReads ++ [v] }

/-- A host read (R82, R83, R85, R88). A byte is answered zero-extended (log 9). -/
def hostRead (width : Nat) (off : Addr) (s : State) : Result :=
  match target s.cfg width off with
  | .register r => .next (s.answer (s.readRegister r))
  | .reserved => .next (s.answer 0)
  | .byte b i =>
    match s.readBuf b i with
    | some v => .next (s.answer (v.setWidth 32))
    | none => .fault (.unwritten b i)
  | .illegal => .fault .hostBusError

/-- A host write of a register (R84); `run` executes a command word. -/
def writeRegister (run : Word → State → Result) (r : Register) (v : Word) (s : State) : Result :=
  match r with
  | .ctrl => .next (s.writeCtrl v)
  | .cmd => run v s
  | .keyStage => .next { s with keyStage := v }
  | .status | .maskKey | .rxHdr | .rxDlen | .rxLen | .rxMkey | .txLen => .next s

/-- A host write of one byte of a buffer's window (R87): KEYIN and PIN take it, the others ignore it. -/
def State.writeWindow (b : Buffer) (i : Nat) (v : Byte) (s : State) : State :=
  match b with
  | .keyin => { s with keyin := Memory.write s.keyin i v }
  | .pin => { s with pin := Memory.write s.pin i v }
  | .txbuf | .rxbuf | .accept => s

/-- A host write (R82, R84, R87). A 1-byte write stores the low byte of its value (log 9). -/
def hostWrite (run : Word → State → Result) (width : Nat) (off : Addr) (v : Word) (s : State) : Result :=
  match target s.cfg width off with
  | .register r => writeRegister run r v s
  | .reserved => .next s
  | .byte b i => .next (s.writeWindow b i (v.setWidth 8))
  | .illegal => .fault .hostBusError

/-- A read of STATUS: the one host access allowed while a command is active (70_reset R420). -/
def isStatusRead (width : Nat) (off : Addr) : Bool := decide (width = 4 ∧ off = 0x008#19)

/-- One input (00_scope R14). A host access while CMD_ACTIVE = 1, other than a STATUS read, has no meaning (R420). -/
def hostEvent (run : Word → State → Result) (e : Event) (s : State) : Result :=
  match e with
  | .read width off =>
    if s.cmdActive && !isStatusRead width off then .refused .accessWhileActive else hostRead width off s
  | .write width off v =>
    if s.cmdActive then .refused .accessWhileActive else hostWrite run width off v s
  | .peer bytes => .next (s.peerAppend bytes)
  | .powerOn => .next s.powerOn

end Sys2Proof.Machine
end

