-- ==== Sys2Proof/Machine/Mask.lean ====
section
/-! DEFINITION. The mask/unmask XOR engine and SET_MASK_KEY (40_mask_xor). -/

namespace Sys2Proof.Machine

/-- MaskXor of the bytes from payload index `i` on (R170). -/
def maskFrom (k : Word) : Nat → List Byte → List Byte
  | _, [] => []
  | i, b :: bs => (b ^^^ keyByte k (i % 4)) :: maskFrom k (i + 1) bs

/-- `MaskXor(p, k)[i] = p[i] XOR k[i mod 4]` (R170). -/
def maskXor (p : List Byte) (k : Word) : List Byte := maskFrom k 0 p

/-- SET_MASK_KEY (R173): MASK_KEY <- KEY_STAGE, MASK_FRESH <- 1. -/
def execSetMaskKey (s : State) : Result :=
  .next ({ s with maskKey := s.keyStage, maskFresh := true }).finish

end Sys2Proof.Machine
end

