-- ==== Sys2Proof/Machine/Receive.lean ====
section
/-! DEFINITION. Reading one frame from the receive stream, phase by phase (41_decode R201 to R212), and DRAIN (R220).

The count A of 10_state R56 is everywhere the length of what is left of the stream: no append interleaves with a command
(20_memory R91). -/

namespace Sys2Proof.Machine

/-- The payload loop (R207, R208, R210): `n` bytes still to read, the next to index `i`, each unmasked with `k`. At the end
`whole` says what follows; where the stream runs out, TruncatedRead with RX_LEN = i. -/
def readPayload (k : Word) (whole : State → State) : (n i : Nat) → State → State
  | 0, i, s => whole { s with rxLen := BitVec.ofNat 16 i }
  | n + 1, i, s =>
    match s.rxs with
    | [] => ({ s with rxLen := BitVec.ofNat 16 i }).raise .truncatedRead
    | c :: rest =>
      readPayload k whole n (i + 1)
        { s with rxs := rest, rxbuf := Memory.write s.rxbuf i (c ^^^ keyByte k (i % 4)) }

/-- After the payload loop (R209, R212): an oversize frame is PayloadTooLarge, any other is delivered. -/
def deliver (len : Nat) (s : State) : State :=
  if s.cfg.rxCap < len then s.raise .payloadTooLarge
  else ({ s with rxValid := true }).finish

/-- The payload phase (R207): at most RX_CAP bytes are read. -/
def payloadPhase (k : Word) (len : Nat) (s : State) : State :=
  readPayload k (deliver len) (min len s.cfg.rxCap) 0 s

/-- The mask-key phase (R205, R206). Fewer than MASK_AVAIL_MIN bytes left: MissingMaskKey, the key not read. A stream of
fewer than 4 bytes has no key to read; it gets here only with a MASK_AVAIL_MIN outside its legal range (log 14). -/
def keyPhase (masked : Bool) (len : Nat) (s : State) : State :=
  if masked then
    if s.rxs.length < s.cfg.maskAvailMin then s.raise .missingMaskKey
    else
      match s.rxs with
      | k0 :: k1 :: k2 :: k3 :: rest =>
        payloadPhase (packKey k0 k1 k2 k3) len { s with rxs := rest, rxMkey := packKey k0 k1 k2 k3 }
      | _ => s.raise .missingMaskKey
  else payloadPhase 0 len s

/-- The length phase (R203, R204). -/
def lengthPhase (b1 : Byte) (s : State) : State :=
  if b1Len7 b1 = 127 then s.raise .unsupportedLength
  else if b1Len7 b1 = 126 then
    match s.rxs with
    | e0 :: e1 :: rest =>
      keyPhase (b1Masked b1) (extendedLength e0 e1)
        { s with rxs := rest, rxDlen := BitVec.ofNat 16 (extendedLength e0 e1) }
    | _ => s.raise .truncatedRead
  else keyPhase (b1Masked b1) (b1Len7 b1) { s with rxDlen := BitVec.ofNat 16 (b1Len7 b1) }

/-- The header phase's register writes (R202): RX_HDR takes B0 : B1 and the inbound slot is retired. -/
def State.retire (b0 b1 : Byte) (s : State) : State :=
  { s with rxHdr := bigEndian16 b0 b1, rxDlen := 0, rxMkey := 0, rxLen := 0, rxValid := false }

/-- One frame read from the front of the receive stream (R200): the gate (R201), then the phases. -/
def receiveFrame (s : State) : State :=
  if s.started then
    match s.rxs with
    | b0 :: b1 :: rest => lengthPhase b1 (State.retire b0 b1 { s with rxs := rest })
    | _ => s.raise .idle
  else s.raise .connectionNotStarted

/-- DECODE of a stream whose first byte is the base header byte with these fields; what follows it is in `s.rxs`. A byte
that the gate leaves unread is at the front of the stream again (R201). The opcode is recorded and not acted on
(R123). -/
def receiveHeader (fin rsv1 rsv2 rsv3 : Bool) (op : FrameOpcode) (s : State) : State :=
  receiveFrame { s with rxs := headerByte fin rsv1 rsv2 rsv3 op :: s.rxs }

/-- DRAIN (R220): RX_VALID <- 0, RX_LEN <- 0. -/
def execDrain (s : State) : Result :=
  .next ({ s with rxValid := false, rxLen := 0 }).finish

end Sys2Proof.Machine
end

