-- ==== Sys2Proof/Machine/Frames.lean ====
section
/-! DEFINITION. The sixteen base header bytes of the wire (30_encoding R121, R123) and DECODE (41_decode R200), which fetches
one of them from the receive stream and runs it (log 10).

Each frame's meaning is DECODE of a stream whose first byte is that header byte: the codec records the opcode, FIN and RSV in
RX_HDR and does not act on them (R123, R128, R202). -/

namespace Sys2Proof.Machine

/-- A frame whose OPCODE is 0x0, Continuation (R123, R202, R128). -/
def execFrameContinuation (fin rsv1 rsv2 rsv3 : Bool) (s : State) : Result :=
  .next (receiveHeader fin rsv1 rsv2 rsv3 .continuation s)

/-- A frame whose OPCODE is 0x1, Text (R123, R202, R128). -/
def execFrameText (fin rsv1 rsv2 rsv3 : Bool) (s : State) : Result :=
  .next (receiveHeader fin rsv1 rsv2 rsv3 .text s)

/-- A frame whose OPCODE is 0x2, Binary (R123, R202, R128). -/
def execFrameBinary (fin rsv1 rsv2 rsv3 : Bool) (s : State) : Result :=
  .next (receiveHeader fin rsv1 rsv2 rsv3 .binary s)

/-- A frame whose OPCODE is 0x3, Reserved3 (R123, R202, R128). -/
def execFrameReserved3 (fin rsv1 rsv2 rsv3 : Bool) (s : State) : Result :=
  .next (receiveHeader fin rsv1 rsv2 rsv3 .reserved3 s)

/-- A frame whose OPCODE is 0x4, Reserved4 (R123, R202, R128). -/
def execFrameReserved4 (fin rsv1 rsv2 rsv3 : Bool) (s : State) : Result :=
  .next (receiveHeader fin rsv1 rsv2 rsv3 .reserved4 s)

/-- A frame whose OPCODE is 0x5, Reserved5 (R123, R202, R128). -/
def execFrameReserved5 (fin rsv1 rsv2 rsv3 : Bool) (s : State) : Result :=
  .next (receiveHeader fin rsv1 rsv2 rsv3 .reserved5 s)

/-- A frame whose OPCODE is 0x6, Reserved6 (R123, R202, R128). -/
def execFrameReserved6 (fin rsv1 rsv2 rsv3 : Bool) (s : State) : Result :=
  .next (receiveHeader fin rsv1 rsv2 rsv3 .reserved6 s)

/-- A frame whose OPCODE is 0x7, Reserved7 (R123, R202, R128). -/
def execFrameReserved7 (fin rsv1 rsv2 rsv3 : Bool) (s : State) : Result :=
  .next (receiveHeader fin rsv1 rsv2 rsv3 .reserved7 s)

/-- A frame whose OPCODE is 0x8, Close (R123, R202, R128). -/
def execFrameClose (fin rsv1 rsv2 rsv3 : Bool) (s : State) : Result :=
  .next (receiveHeader fin rsv1 rsv2 rsv3 .close s)

/-- A frame whose OPCODE is 0x9, Ping (R123, R202, R128). -/
def execFramePing (fin rsv1 rsv2 rsv3 : Bool) (s : State) : Result :=
  .next (receiveHeader fin rsv1 rsv2 rsv3 .ping s)

/-- A frame whose OPCODE is 0xA, Pong (R123, R202, R128). -/
def execFramePong (fin rsv1 rsv2 rsv3 : Bool) (s : State) : Result :=
  .next (receiveHeader fin rsv1 rsv2 rsv3 .pong s)

/-- A frame whose OPCODE is 0xB, ReservedB (R123, R202, R128). -/
def execFrameReservedB (fin rsv1 rsv2 rsv3 : Bool) (s : State) : Result :=
  .next (receiveHeader fin rsv1 rsv2 rsv3 .reservedB s)

/-- A frame whose OPCODE is 0xC, ReservedC (R123, R202, R128). -/
def execFrameReservedC (fin rsv1 rsv2 rsv3 : Bool) (s : State) : Result :=
  .next (receiveHeader fin rsv1 rsv2 rsv3 .reservedC s)

/-- A frame whose OPCODE is 0xD, ReservedD (R123, R202, R128). -/
def execFrameReservedD (fin rsv1 rsv2 rsv3 : Bool) (s : State) : Result :=
  .next (receiveHeader fin rsv1 rsv2 rsv3 .reservedD s)

/-- A frame whose OPCODE is 0xE, ReservedE (R123, R202, R128). -/
def execFrameReservedE (fin rsv1 rsv2 rsv3 : Bool) (s : State) : Result :=
  .next (receiveHeader fin rsv1 rsv2 rsv3 .reservedE s)

/-- A frame whose OPCODE is 0xF, ReservedF (R123, R202, R128). -/
def execFrameReservedF (fin rsv1 rsv2 rsv3 : Bool) (s : State) : Result :=
  .next (receiveHeader fin rsv1 rsv2 rsv3 .reservedF s)

/-- Run the frame whose base header byte has been fetched, by its opcode. -/
def runFrame (op : FrameOpcode) (fin rsv1 rsv2 rsv3 : Bool) (s : State) : Result :=
  match op with
  | .continuation => execFrameContinuation fin rsv1 rsv2 rsv3 s
  | .text => execFrameText fin rsv1 rsv2 rsv3 s
  | .binary => execFrameBinary fin rsv1 rsv2 rsv3 s
  | .reserved3 => execFrameReserved3 fin rsv1 rsv2 rsv3 s
  | .reserved4 => execFrameReserved4 fin rsv1 rsv2 rsv3 s
  | .reserved5 => execFrameReserved5 fin rsv1 rsv2 rsv3 s
  | .reserved6 => execFrameReserved6 fin rsv1 rsv2 rsv3 s
  | .reserved7 => execFrameReserved7 fin rsv1 rsv2 rsv3 s
  | .close => execFrameClose fin rsv1 rsv2 rsv3 s
  | .ping => execFramePing fin rsv1 rsv2 rsv3 s
  | .pong => execFramePong fin rsv1 rsv2 rsv3 s
  | .reservedB => execFrameReservedB fin rsv1 rsv2 rsv3 s
  | .reservedC => execFrameReservedC fin rsv1 rsv2 rsv3 s
  | .reservedD => execFrameReservedD fin rsv1 rsv2 rsv3 s
  | .reservedE => execFrameReservedE fin rsv1 rsv2 rsv3 s
  | .reservedF => execFrameReservedF fin rsv1 rsv2 rsv3 s

/-- DECODE (R200): with a byte in the receive stream, that byte is the frame's base header byte and its frame is run on the
rest of the stream; with none, the gate alone decides (R201). -/
def execDecode (s : State) : Result :=
  match s.rxs with
  | [] => .next (receiveFrame s)
  | b0 :: rest =>
    runFrame (b0Opcode b0) (b0Fin b0) (b0Rsv1 b0) (b0Rsv2 b0) (b0Rsv3 b0) { s with rxs := rest }

end Sys2Proof.Machine
end

