-- ==== Sys2Proof/Machine/Base64.lean ====
section
/-! DEFINITION. Base64 of a 20-byte digest (43_handshake_key R309 to R311; the alphabet and bit order are marked "from
general knowledge, not in source": log 15). -/

namespace Sys2Proof.Machine

/-- `Alpha(v)`, the ASCII character of a 6-bit value (R309). -/
def base64Char (v : BitVec 6) : Byte :=
  let n := v.toNat
  if n < 26 then BitVec.ofNat 8 (0x41 + n)
  else if n < 52 then BitVec.ofNat 8 (0x61 + (n - 26))
  else if n < 62 then BitVec.ofNat 8 (0x30 + (n - 52))
  else if n = 62 then 0x2B#8
  else 0x2F#8

/-- The padding character `=` (R309). -/
def base64Pad : Byte := 0x3D#8

/-- Three bytes as four characters (R310). -/
def base64Group (a b c : Byte) : List Byte :=
  let x : BitVec 24 := (a ++ b ++ c : BitVec 24)
  [base64Char (x.extractLsb' 18 6), base64Char (x.extractLsb' 12 6), base64Char (x.extractLsb' 6 6),
    base64Char (x.extractLsb' 0 6)]

/-- The last two bytes as three characters and the padding (R310): the last group is completed with two zero bits. -/
def base64Tail (a b : Byte) : List Byte :=
  [base64Char (a.extractLsb' 2 6), base64Char (a.extractLsb' 0 2 ++ b.extractLsb' 4 4 : BitVec 6),
    base64Char (b.extractLsb' 0 4 ++ 0#2 : BitVec 6), base64Pad]

/-- Re-packing (R310): full groups of three bytes from the front, then a last group of two. A digest has 20 bytes, so no
other remainder arises. -/
def base64 : List Byte → List Byte
  | a :: b :: c :: rest => base64Group a b c ++ base64 rest
  | [a, b] => base64Tail a b
  | _ => []

end Sys2Proof.Machine
end

