-- ==== Sys2Proof/Machine/Sha1.lean ====
section
/-! DEFINITION. SHA-1 (43_handshake_key R302 to R308; the spec marks these rules "from general knowledge, not in source":
log 15). -/

namespace Sys2Proof.Machine

/-- `ROTL_n(x)` on a 32-bit word (00_scope R10). -/
def rotl (n : Nat) (x : Word) : Word := (x <<< n) ||| (x >>> (32 - n))

/-- The number of zero bytes of the padding (R302): the least z with (l + 1 + z) mod 64 = 56. -/
def padZeros (l : Nat) : Nat := (119 - l % 64) % 64

/-- The 8-byte big-endian encoding of a number (R302). -/
def bigEndian8 (n : Nat) : List Byte :=
  [BitVec.ofNat 8 (n / 2 ^ 56), BitVec.ofNat 8 (n / 2 ^ 48), BitVec.ofNat 8 (n / 2 ^ 40), BitVec.ofNat 8 (n / 2 ^ 32),
    BitVec.ofNat 8 (n / 2 ^ 24), BitVec.ofNat 8 (n / 2 ^ 16), BitVec.ofNat 8 (n / 2 ^ 8), BitVec.ofNat 8 n]

/-- The padded message (R302). -/
def sha1Pad (m : List Byte) : List Byte :=
  m ++ 0x80#8 :: (List.replicate (padZeros m.length) 0x00#8 ++ bigEndian8 (8 * m.length))

/-- Bytes read as big-endian 32-bit words (R303). -/
def bytesToWords : List Byte → List Word
  | a :: b :: c :: d :: rest => bigEndian32 a b c d :: bytesToWords rest
  | _ => []

/-- The next word of the schedule from the words so far, newest first (R305):
`ROTL_1(W[t-3] XOR W[t-8] XOR W[t-14] XOR W[t-16])`. -/
def scheduleWord (w : List Word) : Word :=
  rotl 1 (w.getD 2 0 ^^^ w.getD 7 0 ^^^ w.getD 13 0 ^^^ w.getD 15 0)

/-- Extend the schedule, newest word first, by `n` words (R305). -/
def extendSchedule : Nat → List Word → List Word
  | 0, w => w
  | n + 1, w => extendSchedule n (scheduleWord w :: w)

/-- The 80-word message schedule of a 16-word block (R303, R305). -/
def schedule (block : List Word) : List Word := (extendSchedule 64 block.reverse).reverse

/-- The five chaining words, and the five round variables (R304, R307). -/
structure Sha1State where
  a : Word
  b : Word
  c : Word
  d : Word
  e : Word
  deriving DecidableEq, Repr

/-- The initial hash value (R304). -/
def sha1Init : Sha1State :=
  { a := 0x67452301#32, b := 0xEFCDAB89#32, c := 0x98BADCFE#32, d := 0x10325476#32, e := 0xC3D2E1F0#32 }

/-- `f_t(b, c, d)` (R306). -/
def roundFunction (t : Nat) (b c d : Word) : Word :=
  if t < 20 then (b &&& c) ||| (~~~b &&& d)
  else if t < 40 then b ^^^ c ^^^ d
  else if t < 60 then (b &&& c) ||| (b &&& d) ||| (c &&& d)
  else b ^^^ c ^^^ d

/-- `K_t` (R306). -/
def roundConstant (t : Nat) : Word :=
  if t < 20 then 0x5A827999#32
  else if t < 40 then 0x6ED9EBA1#32
  else if t < 60 then 0x8F1BBCDC#32
  else 0xCA62C1D6#32

/-- One round (R307). -/
def sha1Round (t : Nat) (w : Word) (v : Sha1State) : Sha1State :=
  { a := rotl 5 v.a + roundFunction t v.b v.c v.d + v.e + roundConstant t + w
    b := v.a
    c := rotl 30 v.b
    d := v.c
    e := v.d }

/-- The rounds from `t` on, one per word of the schedule (R307). -/
def sha1Rounds : Nat → List Word → Sha1State → Sha1State
  | _, [], v => v
  | t, w :: ws, v => sha1Rounds (t + 1) ws (sha1Round t w v)

/-- Compression of one block (R307). -/
def sha1Block (h : Sha1State) (block : List Word) : Sha1State :=
  let v := sha1Rounds 0 (schedule block) h
  { a := h.a + v.a, b := h.b + v.b, c := h.c + v.c, d := h.d + v.d, e := h.e + v.e }

/-- The first `n` blocks of 16 words, compressed in order (R303, R307). -/
def sha1Blocks : Nat → List Word → Sha1State → Sha1State
  | 0, _, h => h
  | n + 1, ws, h => sha1Blocks n (ws.drop 16) (sha1Block h (ws.take 16))

/-- The four bytes of a word, big-endian (R308). -/
def wordBytes (w : Word) : List Byte :=
  [w.extractLsb' 24 8, w.extractLsb' 16 8, w.extractLsb' 8 8, w.extractLsb' 0 8]

/-- SHA-1: the 20-byte digest of a message (R302 to R308). -/
def sha1 (m : List Byte) : List Byte :=
  let p := sha1Pad m
  let h := sha1Blocks (p.length / 64) (bytesToWords p) sha1Init
  wordBytes h.a ++ wordBytes h.b ++ wordBytes h.c ++ wordBytes h.d ++ wordBytes h.e

end Sys2Proof.Machine
end

