-- ==== Sys2Proof/Machine/KeyDeriver.lean ====
section
/-! DEFINITION. The handshake accept-key deriver, DERIVE_KEY (43_handshake_key). -/

namespace Sys2Proof.Machine

/-- The 36-byte WebSocket GUID (R291). -/
def guid : List Byte :=
  [0x32#8, 0x35#8, 0x38#8, 0x45#8, 0x41#8, 0x46#8, 0x41#8, 0x35#8, 0x2D#8, 0x45#8, 0x39#8, 0x31#8] ++
  [0x34#8, 0x2D#8, 0x34#8, 0x37#8, 0x44#8, 0x41#8, 0x2D#8, 0x39#8, 0x35#8, 0x43#8, 0x41#8, 0x2D#8] ++
  [0x43#8, 0x35#8, 0x41#8, 0x42#8, 0x30#8, 0x44#8, 0x43#8, 0x38#8, 0x35#8, 0x42#8, 0x31#8, 0x31#8]

/-- The accept key of a request key (R290, R301, R311). -/
def acceptKey (key : List Byte) : List Byte := base64 (sha1 (key ++ guid))

/-- DERIVE_KEY (R300): KeyTooLong above KEY_MAX, else ACCEPT takes the accept key of KEYIN[0 .. n-1]. -/
def execDeriveKey (n : Nat) (s : State) : Result :=
  if s.cfg.keyMax < n then .next (s.raise .keyTooLong)
  else
    match Memory.readBytes s.keyin 0 n with
    | .error i => .fault (.unwritten .keyin i)
    | .ok key => .next ({ s with accept := Memory.writeBytes s.accept 0 (acceptKey key) }).finish

end Sys2Proof.Machine
end

