-- ==== Sys2Proof/Machine/Transmit.lean ====
section
/-! DEFINITION. ENCODE and FLUSH (42_encode). -/

namespace Sys2Proof.Machine

/-- An outbound frame (R252): B0 with FIN = 1 and RSV = 0, the length fields, the key and masked payload if `masked`,
else the payload as it is. -/
def buildFrame (op : FrameOpcode) (masked : Bool) (k : Word) (payload : List Byte) : List Byte :=
  headerByte true false false false op :: (lengthFields masked payload.length ++
    (if masked then keyBytes k ++ maskXor payload k else payload))

/-- The built frame goes into the send slot (R252): TXBUF, TX_LEN, TX_BUSY, and MASK_FRESH cleared if the key was used. -/
def State.queueFrame (frame : List Byte) (s : State) : State :=
  { s with
    txbuf := Memory.writeBytes s.txbuf 0 frame
    txLen := BitVec.ofNat 17 frame.length
    txBusy := true
    maskFresh := if s.maskEn then false else s.maskFresh }

/-- ENCODE (R250 to R252): SendBusy, then PayloadTooLarge, before any write; else the frame is built from PIN. -/
def execEncode (op : FrameOpcode) (len : Nat) (s : State) : Result :=
  if s.txBusy then .next (s.raise .sendBusy)
  else if s.cfg.txCap < len then .next (s.raise .payloadTooLarge)
  else
    match Memory.readBytes s.pin 0 len with
    | .error i => .fault (.unwritten .pin i)
    | .ok payload => .next (s.queueFrame (buildFrame op s.maskEn s.maskKey payload)).finish

/-- The frame is offered to the transport and the slot freed whatever the answer (R260). -/
def State.sendFrame (frame : List Byte) (s : State) : State :=
  let (a, s) := s.txWrite frame
  let s := { s with txBusy := false }
  match a with
  | .ok => s.finish
  | .err _ => s.raise .transportError

/-- FLUSH (R260). -/
def execFlush (s : State) : Result :=
  if s.started then
    if s.txBusy then
      match Memory.readBytes s.txbuf 0 s.txLen.toNat with
      | .error i => .fault (.unwritten .txbuf i)
      | .ok frame => .next (s.sendFrame frame)
    else .next (s.raise .idle)
  else .next (s.raise .connectionNotStarted)

end Sys2Proof.Machine
end

