-- ==== Sys2Proof/Machine/Dispatch.lean ====
section
/-! DEFINITION. One arm per instruction. -/

namespace Sys2Proof.Machine

def exec (i : Instr) (s : State) : Host.Outcome State Fault Refusal :=
  match i with
  | .reservedCmd0 => Sys2Proof.Machine.execReservedCmd0 s
  | .decode => Sys2Proof.Machine.execDecode s
  | .drain => Sys2Proof.Machine.execDrain s
  | .encode op len => Sys2Proof.Machine.execEncode op len s
  | .flush => Sys2Proof.Machine.execFlush s
  | .setMaskKey => Sys2Proof.Machine.execSetMaskKey s
  | .deriveKey n => Sys2Proof.Machine.execDeriveKey n s
  | .clear => Sys2Proof.Machine.execClear s
  | .reservedCmd8 => Sys2Proof.Machine.execReservedCmd8 s
  | .reservedCmd9 => Sys2Proof.Machine.execReservedCmd9 s
  | .reservedCmdA => Sys2Proof.Machine.execReservedCmdA s
  | .reservedCmdB => Sys2Proof.Machine.execReservedCmdB s
  | .reservedCmdC => Sys2Proof.Machine.execReservedCmdC s
  | .reservedCmdD => Sys2Proof.Machine.execReservedCmdD s
  | .reservedCmdE => Sys2Proof.Machine.execReservedCmdE s
  | .reservedCmdF => Sys2Proof.Machine.execReservedCmdF s
  | .frameContinuation fin rsv1 rsv2 rsv3 => Sys2Proof.Machine.execFrameContinuation fin rsv1 rsv2 rsv3 s
  | .frameText fin rsv1 rsv2 rsv3 => Sys2Proof.Machine.execFrameText fin rsv1 rsv2 rsv3 s
  | .frameBinary fin rsv1 rsv2 rsv3 => Sys2Proof.Machine.execFrameBinary fin rsv1 rsv2 rsv3 s
  | .frameReserved3 fin rsv1 rsv2 rsv3 => Sys2Proof.Machine.execFrameReserved3 fin rsv1 rsv2 rsv3 s
  | .frameReserved4 fin rsv1 rsv2 rsv3 => Sys2Proof.Machine.execFrameReserved4 fin rsv1 rsv2 rsv3 s
  | .frameReserved5 fin rsv1 rsv2 rsv3 => Sys2Proof.Machine.execFrameReserved5 fin rsv1 rsv2 rsv3 s
  | .frameReserved6 fin rsv1 rsv2 rsv3 => Sys2Proof.Machine.execFrameReserved6 fin rsv1 rsv2 rsv3 s
  | .frameReserved7 fin rsv1 rsv2 rsv3 => Sys2Proof.Machine.execFrameReserved7 fin rsv1 rsv2 rsv3 s
  | .frameClose fin rsv1 rsv2 rsv3 => Sys2Proof.Machine.execFrameClose fin rsv1 rsv2 rsv3 s
  | .framePing fin rsv1 rsv2 rsv3 => Sys2Proof.Machine.execFramePing fin rsv1 rsv2 rsv3 s
  | .framePong fin rsv1 rsv2 rsv3 => Sys2Proof.Machine.execFramePong fin rsv1 rsv2 rsv3 s
  | .frameReservedB fin rsv1 rsv2 rsv3 => Sys2Proof.Machine.execFrameReservedB fin rsv1 rsv2 rsv3 s
  | .frameReservedC fin rsv1 rsv2 rsv3 => Sys2Proof.Machine.execFrameReservedC fin rsv1 rsv2 rsv3 s
  | .frameReservedD fin rsv1 rsv2 rsv3 => Sys2Proof.Machine.execFrameReservedD fin rsv1 rsv2 rsv3 s
  | .frameReservedE fin rsv1 rsv2 rsv3 => Sys2Proof.Machine.execFrameReservedE fin rsv1 rsv2 rsv3 s
  | .frameReservedF fin rsv1 rsv2 rsv3 => Sys2Proof.Machine.execFrameReservedF fin rsv1 rsv2 rsv3 s

end Sys2Proof.Machine
end

