-- ==== Sys2Proof/Machine/Step.lean ====
section
/-! DEFINITION. One step of the machine (00_scope R14): the oldest pending input. -/

namespace Sys2Proof.Machine

/-- Execute a command word (20_memory R84, 30_encoding R130): CMD_ACTIVE rises, and the instruction the word names runs to
its end. -/
def runCommand (w : Word) (s : State) : Host.Outcome State Fault Refusal :=
  exec (decodeCommand w) s.beginCommand

/-- One step: the oldest pending input takes effect. With none the block is idle and keeps its state (60_exceptions R376). -/
def step (s : State) : Host.Outcome State Fault Refusal :=
  match s.pending with
  | [] => .next s
  | e :: rest => hostEvent runCommand e { s with pending := rest }

/-- The host writes this word to CMD next (10_state R34). -/
def State.withCommand (w : Word) (s : State) : State :=
  { s with cmdActive := false, pending := .write 4 0x004#19 w :: s.pending }

/-- `s` with an instruction placed where the next step fetches it (log 1, log 10): a 32-bit command word as the next write
of CMD; a base header byte at the front of the receive stream, followed by a second header byte of zero (no mask, no
payload), with the connection started and DECODE as the next command. -/
def State.withFetchWord (s : State) (nbits w : Nat) : State :=
  if nbits = 8 then
    State.withCommand 0x00000001#32 { s with started := true, rxs := BitVec.ofNat 8 w :: 0x00#8 :: s.rxs }
  else State.withCommand (BitVec.ofNat 32 w) s

end Sys2Proof.Machine
end

