-- ==== Sys2Proof/Safety.lean ====
section
/-! DEFINITION. What holds in every state the machine reaches (10_state R59, with the canonical form of the buffers), and a
safe run. -/

namespace Sys2Proof.Machine

/-- The buffers are canonical and lie within their capacities (R49 to R53). -/
structure State.BuffersOk (s : State) : Prop where
  canonical : ∀ b : Buffer, (s.buffer b).wf
  inRange : ∀ b : Buffer, ∀ c ∈ s.buffer b, c.1 < bufferCapacity s.cfg b

/-- The inbound slot (R51, R59): RX_LEN counts written bytes within the capacity, and a valid payload is the declared one. -/
structure State.InboundOk (s : State) : Prop where
  rxLenLe : s.rxLen.toNat ≤ s.cfg.rxCap
  written : ∃ p, Memory.readBytes s.rxbuf 0 s.rxLen.toNat = .ok p
  valid : s.rxValid = true → s.rxLen = s.rxDlen ∧ s.rxDlen.toNat ≤ s.cfg.rxCap

/-- The send slot (R50, R59): a queued frame is one the encode rule produced. -/
structure State.OutboundOk (s : State) : Prop where
  txLenLe : s.txLen.toNat ≤ s.cfg.txCap + 8
  busyLen : s.txBusy = true → 2 ≤ s.txLen.toNat
  busyFrame : s.txBusy = true → ∃ op masked k payload,
    payload.length ≤ s.cfg.txCap ∧
    Memory.readBytes s.txbuf 0 s.txLen.toNat = .ok (buildFrame op masked k payload)

/-- The invariant of the machine (R59). -/
structure State.Inv (s : State) : Prop where
  legal : s.cfg.Legal
  buffers : s.BuffersOk
  inbound : s.InboundOk
  outbound : s.OutboundOk
  idle : s.cmdActive = false

/-- A safe run of `k` steps: it does not stop. -/
def SafeRun (k : Nat) (s : State) : Prop := ∃ t, Sys2Proof.core.run k s = .next t

end Sys2Proof.Machine
end

