-- ==== Sys2Proof/Certificates/Slice0/Obligations.lean ====
section
/-! DEFINITION. The statements about the machine, each from a rule of spec/ (the docstring names it). -/

namespace Sys2Proof.Claims

open Sys2Proof.Machine

/-! ### Words the statements share -/

/-- Byte `i` of the receive stream, counted from its front. -/
def streamByte (s : State) (i : Nat) : Byte := s.rxs.getD i 0

/-- The declared length of the frame at the front of the stream (30_encoding R126), from its own bytes. -/
def declaredLength (s : State) : Nat :=
  if b1Len7 (streamByte s 1) = 126 then (streamByte s 2).toNat * 256 + (streamByte s 3).toNat
  else b1Len7 (streamByte s 1)

/-- The header size of the frame at the front of the stream (R124, R125). -/
def frontHeader (s : State) : Nat := headerSize (streamByte s 1)

/-- The mask key of the frame at the front of the stream: the four bytes before the payload, or zero if it is unmasked. -/
def frontKey (s : State) : Word :=
  if b1Masked (streamByte s 1) then
    packKey (streamByte s (frontHeader s - 4)) (streamByte s (frontHeader s - 3)) (streamByte s (frontHeader s - 2))
      (streamByte s (frontHeader s - 1))
  else 0

/-- A row of the outcome table of DECODE (41_decode R213). -/
structure DecodeOutcome where
  status : Status
  consumed : Nat
  rxValid : Bool
  rxLen : Nat
  rxHdr : BitVec 16
  rxDlen : Nat
  rxMkey : Word

/-- The outcome table of DECODE (41_decode R213): "The rows are tested in the order listed; the first that applies is the
outcome". `a0` is A0, `h` the header size, `len` the declared length. -/
def decodeOutcome (s : State) : DecodeOutcome :=
  let a0 := s.rxs.length
  let b1 := streamByte s 1
  let h := frontHeader s
  let len := declaredLength s
  let hdr := bigEndian16 (streamByte s 0) b1
  if s.started = false then
    ⟨.connectionNotStarted, 0, s.rxValid, s.rxLen.toNat, s.rxHdr, s.rxDlen.toNat, s.rxMkey⟩
  else if a0 < 2 then ⟨.idle, 0, s.rxValid, s.rxLen.toNat, s.rxHdr, s.rxDlen.toNat, s.rxMkey⟩
  else if b1Len7 b1 = 127 then ⟨.unsupportedLength, 2, false, 0, hdr, 0, 0⟩
  else if b1Len7 b1 = 126 ∧ a0 < 4 then ⟨.truncatedRead, 2, false, 0, hdr, 0, 0⟩
  else if b1Masked b1 = true ∧ a0 - (h - 4) < s.cfg.maskAvailMin then
    ⟨.missingMaskKey, h - 4, false, 0, hdr, len, 0⟩
  else if a0 - h < min len s.cfg.rxCap then ⟨.truncatedRead, a0, false, a0 - h, hdr, len, frontKey s⟩
  else if s.cfg.rxCap < len then ⟨.payloadTooLarge, h + s.cfg.rxCap, false, s.cfg.rxCap, hdr, len, frontKey s⟩
  else ⟨.ok, h + len, true, len, hdr, len, frontKey s⟩

/-- A step has read a frame header: the gate of DECODE is passed (41_decode R201, R202). -/
def HeaderRead (s : State) : Prop := s.started = true ∧ 2 ≤ s.rxs.length

/-- `n` bytes of a buffer from index 0 hold values. -/
def Written (s : State) (b : Buffer) (n : Nat) : Prop := ∀ i < n, (s.readBuf b i).isSome = true

/-- A 4-byte host access at `off` lies in the register space or in a reserved range of the map (20_memory R81, R82; log 7:
a window's reserved part is no reserved range for a 4-byte access). -/
def WordRange (off : Addr) : Prop :=
  off.toNat < 0x00100 ∨ (0x0019C ≤ off.toNat ∧ off.toNat < 0x20000) ∨
    (0x30000 ≤ off.toNat ∧ off.toNat < 0x40000) ∨ 0x70000 ≤ off.toNat

/-- A legal host access (20_memory R82): 4 aligned bytes in the register space or a reserved range, or 1 byte outside the
register space (everything there is a buffer window or reserved). -/
def LegalAccess (width : Nat) (off : Addr) : Prop :=
  (width = 4 ∧ off.toNat % 4 = 0 ∧ WordRange off) ∨ (width = 1 ∧ 0x00100 ≤ off.toNat)

/-- An offset in a reserved range of the map outside the register space (20_memory R81). -/
def ReservedRange (a : Nat) : Prop :=
  (0x0019C ≤ a ∧ a < 0x20000) ∨ (0x30000 ≤ a ∧ a < 0x40000) ∨ 0x70000 ≤ a

/-- An offset in a buffer's window past the buffer's capacity (20_memory R81): reserved. -/
def WindowTail (c : Config) (a : Nat) : Prop :=
  (0x00100 + c.keyMax ≤ a ∧ a < 0x00180) ∨ (0x20000 + c.txCap ≤ a ∧ a < 0x30000) ∨
    (0x40000 + (c.txCap + 8) ≤ a ∧ a < 0x60000) ∨ (0x60000 + c.rxCap ≤ a ∧ a < 0x70000)

/-- A legal access of a reserved offset (20_memory R81, R82): 4 aligned bytes in the reserved registers, 4 aligned bytes or 1
byte in a reserved range, 1 byte past a buffer's capacity in its window. -/
def ReservedAccess (c : Config) (width : Nat) (off : Addr) : Prop :=
  (width = 4 ∧ off.toNat % 4 = 0 ∧ 0x00028 ≤ off.toNat ∧ off.toNat < 0x00100) ∨
    ((width = 1 ∨ (width = 4 ∧ off.toNat % 4 = 0)) ∧ ReservedRange off.toNat) ∨
    (width = 1 ∧ WindowTail c off.toNat)

/-- The first offset of a buffer's window (20_memory R81). -/
def windowStart : Buffer → Nat
  | .keyin => 0x00100
  | .accept => 0x00180
  | .pin => 0x20000
  | .txbuf => 0x40000
  | .rxbuf => 0x60000

/-- The value of a register at an offset of the register space (20_memory R83, 10_state R32); 0 where there is none. -/
def registerValue (s : State) (a : Nat) : Word :=
  if a = 0x000 then s.ctrlWord
  else if a = 0x008 then s.statusWord
  else if a = 0x00C then s.maskKey
  else if a = 0x010 then s.keyStage
  else if a = 0x014 then s.rxHdr.setWidth 32
  else if a = 0x018 then s.rxDlen.setWidth 32
  else if a = 0x01C then s.rxLen.setWidth 32
  else if a = 0x020 then s.rxMkey
  else if a = 0x024 then s.txLen.setWidth 32
  else 0

/-- The reserved commands (30_encoding R131): RESERVED_CMD_0 and RESERVED_CMD_8 to RESERVED_CMD_F. -/
def reservedCommands : List Instr :=
  [.reservedCmd0, .reservedCmd8, .reservedCmd9, .reservedCmdA, .reservedCmdB, .reservedCmdC, .reservedCmdD,
    .reservedCmdE, .reservedCmdF]

/-- The instruction reads the receive stream: DECODE or a frame's header byte. -/
def ReadsStream (i : Instr) : Prop := i = .decode ∨ ∃ op f r1 r2 r3, i = frameInstr op f r1 r2 r3

/-- The command reads byte `j` of buffer `b`: ENCODE the first L bytes of PIN (42_encode R252), DERIVE_KEY the first n of KEYIN
(43_handshake_key R300), FLUSH the first TX_LEN of TXBUF (42_encode R260); no other command reads one. -/
def ReadsByte (i : Instr) (s : State) (b : Buffer) (j : Nat) : Prop :=
  (∃ op len, i = .encode op len ∧ b = .pin ∧ j < len) ∨ (∃ n, i = .deriveKey n ∧ b = .keyin ∧ j < n) ∨
    (i = .flush ∧ b = .txbuf ∧ j < s.txLen.toNat)

/-- The pending input is the host's write of command `i` to CMD. -/
def NextIsCommand (s : State) (i : Instr) : Prop :=
  ∃ w rest, s.pending = .write 4 0x004#19 w :: rest ∧ decodeCommand w = i

/-- The pending input is power-on reset. -/
def NextIsPowerOn (s : State) : Prop := ∃ rest, s.pending = .powerOn :: rest

end Sys2Proof.Claims

open Sys2Proof Sys2Proof.Machine Sys2Proof.Claims

/-! ### Encodings -/

/-- 30_encoding sections 2 and 5: every well-formed instruction (all 32 constructors, every operand value) is what its own
code decodes to. -/
def Obligations.DecodeOfEncodeIsTheInstruction : Prop :=
  ∀ i : Instr, WellFormed i = true → decode (encode i) = i

/-- 30_encoding R133: a reserved CMDOP ends with BadCommand and no other effect, and a word that differs from another only
in ignored bits (bits 15:8; FOPC unless ENCODE; ARG unless ENCODE or DERIVE_KEY) runs as that word. -/
def Obligations.IgnoredCommandBitsDoNotMatter : Prop :=
  (∀ (w : Word) (s : State), (cmdOp w = 0x0#4 ∨ 0x8#4 ≤ cmdOp w) →
    exec (decodeCommand w) s = .next { s with err := .badCommand, cmdActive := false }) ∧
  (∀ w v : Word, cmdOp w = cmdOp v → (cmdOp w = 0x3#4 → cmdFopc w = cmdFopc v) →
    (cmdOp w = 0x3#4 ∨ cmdOp w = 0x6#4 → cmdArg w = cmdArg v) →
    ∀ s : State, exec (decodeCommand w) s = exec (decodeCommand v) s)

/-- 30_encoding R131, R134, R121, R123, 60_exceptions R360: eight command words and two header bytes written out from the spec
decode to what they name, and two result codes have their numbers. The header bytes rest on log 15 (PRESUMED: the places of
the bits of B0). -/
def Obligations.SampleEncodingsDecode : Prop :=
  decodeTableWord 32 0x00000001 = some .decode ∧ decodeTableWord 32 0x00000002 = some .drain ∧
  decodeTableWord 32 0x00050013 = some (.encode .text 5) ∧ decodeTableWord 32 0x00000004 = some .flush ∧
  decodeTableWord 32 0x00000005 = some .setMaskKey ∧ decodeTableWord 32 0x00180006 = some (.deriveKey 24) ∧
  decodeTableWord 32 0xFFFF0F07 = some .clear ∧ decodeTableWord 32 0x0000000F = some .reservedCmdF ∧
  decodeTableWord 8 0x81 = some (.frameText true false false false) ∧
  decodeTableWord 8 0x73 = some (.frameReserved3 false true true true) ∧
  decodeTableWord 16 0x81 = none ∧
  Status.code .connectionNotStarted = 1#4 ∧ Status.code .keyTooLong = 0xA#4

/-! ### Steps and inputs -/

/-- 10_state R34: a host write of CMD runs the command the word encodes, to completion, in that step; a read of CMD answers
0 and has no effect. CMD_ACTIVE is 1 while the command runs (R36), which is what the command's meaning starts from. -/
def Obligations.CmdWriteRunsTheCommand : Prop :=
  ∀ (s : State) (rest : List Event) (w : Word), s.cmdActive = false →
    (s.pending = .write 4 0x004#19 w :: rest →
      step s = exec (decodeCommand w) { s with pending := rest, cmdActive := true } ∧
      ∀ t, step s = .next t → t.cmdActive = false) ∧
    (s.pending = .read 4 0x004#19 :: rest →
      step s = .next { s with pending := rest, hostReads := s.hostReads ++ [0#32] })

/-- Logs 1 and 10 (the model's reading of an opcode-table row placed for the next step): a placed command word runs as the
command the decoder reads from it, and a placed header byte runs as its frame, on the stream that follows it. -/
def Obligations.PlacedInstructionIsTheOneThatRuns : Prop :=
  (∀ (s : State) (w : Nat) (i : Instr), decodeTableWord 32 w = some i →
    step (s.withFetchWord 32 w) = exec i { s with cmdActive := true }) ∧
  (∀ (s : State) (w : Nat) (i : Instr), decodeTableWord 8 w = some i →
    step (s.withFetchWord 8 w) = exec i { s with cmdActive := true, started := true, rxs := 0x00#8 :: s.rxs })

/-- Log 10 (the model's choice): DECODE runs the frame whose header byte is at the front of the receive stream, and a frame's
meaning is DECODE of the stream with that byte in front (FRAME_CONTINUATION to FRAME_RESERVED_F, all sixteen). -/
def Obligations.DecodeRunsTheFrameAtTheFront : Prop :=
  (∀ (s : State) (b0 : Byte) (rest : List Byte), s.rxs = b0 :: rest →
    exec .decode s = exec (decodeWire b0) { s with rxs := rest }) ∧
  (∀ (op : FrameOpcode) (f r1 r2 r3 : Bool) (s : State),
    exec (frameInstr op f r1 r2 r3) s = exec .decode { s with rxs := headerByte f r1 r2 r3 op :: s.rxs })

/-- 20_memory R93: the peer may append any finite byte sequence at the end of RXS, and nothing else changes. -/
def Obligations.PeerAppendsAtTheEnd : Prop :=
  ∀ (s : State) (bs : List Byte) (rest : List Event), s.pending = .peer bs :: rest →
    step s = .next { s with pending := rest, rxs := s.rxs ++ bs }

/-- 70_reset_and_hazards R420, 93 item 3 (refuse): while CMD_ACTIVE = 1 a host access other than a STATUS read has no meaning. -/
def Obligations.AccessWhileActiveIsRefused : Prop :=
  ∀ (s : State) (e : Event) (rest : List Event), s.cmdActive = true → s.pending = e :: rest →
    (∀ width off, e = .read width off → ¬ (width = 4 ∧ off = 0x008#19) → step s = .refused .accessWhileActive) ∧
    (∀ width off v, e = .write width off v → step s = .refused .accessWhileActive) ∧
    (e = .read 4 0x008#19 →
      step s = .next { s with pending := rest, hostReads := s.hostReads ++ [s.statusWord] })

/-! ### The host window -/

/-- 20_memory R82 (with log 7's reading of a reserved range): an access is a bus error exactly when it is not legal. -/
def Obligations.IllegalAccessIsABusError : Prop :=
  ∀ (s : State) (rest : List Event) (width : Nat) (off : Addr) (v : Word), s.cmdActive = false →
    (s.pending = .read width off :: rest → (step s = .fault .hostBusError ↔ ¬ LegalAccess width off)) ∧
    (s.pending = .write width off v :: rest → (step s = .fault .hostBusError ↔ ¬ LegalAccess width off))

/-- 20_memory R83: a legal read of the register space answers the register's value, 0 for CMD and reserved offsets, and
changes nothing. -/
def Obligations.RegisterReadAnswersTheRegister : Prop :=
  ∀ (s : State) (rest : List Event) (off : Addr), s.cmdActive = false → off.toNat < 0x100 → off.toNat % 4 = 0 →
    s.pending = .read 4 off :: rest →
    step s = .next { s with pending := rest, hostReads := s.hostReads ++ [registerValue s off.toNat] }

/-- 20_memory R84: a legal write of the register space stores CTRL's two bits, runs a command, stores KEY_STAGE, or has no
effect. -/
def Obligations.RegisterWriteStoresOrRuns : Prop :=
  ∀ (s : State) (rest : List Event) (off : Addr) (v : Word), s.cmdActive = false → off.toNat < 0x100 →
    off.toNat % 4 = 0 → s.pending = .write 4 off v :: rest →
    step s =
      if off.toNat = 0x000 then .next { s with pending := rest, maskEn := v.getLsbD 0, started := v.getLsbD 1 }
      else if off.toNat = 0x004 then exec (decodeCommand v) { s with pending := rest, cmdActive := true }
      else if off.toNat = 0x010 then .next { s with pending := rest, keyStage := v }
      else .next { s with pending := rest }

/-- 20_memory R85: a legal byte read within a window answers the buffer's byte and changes nothing; a byte no write has
given a value is the fault Unwritten. -/
def Obligations.BufferReadAnswersTheByte : Prop :=
  ∀ (s : State) (rest : List Event) (b : Buffer) (i : Nat) (off : Addr), s.cfg.Legal → s.cmdActive = false →
    i < bufferCapacity s.cfg b → off.toNat = windowStart b + i → s.pending = .read 1 off :: rest →
    step s =
      match s.readBuf b i with
      | some v => .next { s with pending := rest, hostReads := s.hostReads ++ [v.setWidth 32] }
      | none => .fault (.unwritten b i)

/-- 20_memory R87: a byte write within KEYIN or PIN sets that byte and nothing else; one into ACCEPT, TXBUF or RXBUF is
ignored; no other host write (a command apart) changes a buffer. -/
def Obligations.BufferWriteSetsTheByte : Prop :=
  (∀ (s : State) (rest : List Event) (b : Buffer) (i : Nat) (off : Addr) (v : Word), s.cfg.Legal →
    s.cmdActive = false → i < bufferCapacity s.cfg b → off.toNat = windowStart b + i →
    s.pending = .write 1 off v :: rest →
    ∃ t, step s = .next t ∧
      (∀ b' j, t.readBuf b' j =
        if b' = b ∧ j = i ∧ (b = .keyin ∨ b = .pin) then some (v.setWidth 8) else s.readBuf b' j) ∧
      t = { s with pending := rest, keyin := t.keyin, pin := t.pin }) ∧
  (∀ (s t : State) (rest : List Event) (width : Nat) (off : Addr) (v : Word),
    s.pending = .write width off v :: rest → step s = .next t → ¬ (width = 4 ∧ off = 0x004#19) →
    ¬ (width = 1 ∧ ∃ b i, (b = .keyin ∨ b = .pin) ∧ i < bufferCapacity s.cfg b ∧ off.toNat = windowStart b + i) →
    ∀ b, t.buffer b = s.buffer b)

/-- 20_memory sections 1 and 2: a legal read of a reserved offset, in the register space, in a reserved range or in a window
past its buffer's capacity, answers 0; a legal write there is ignored; the whole state is otherwise as it was. -/
def Obligations.ReservedOffsetsReadZeroAndIgnoreWrites : Prop :=
  ∀ (s : State) (rest : List Event) (width : Nat) (off : Addr) (v : Word), s.cmdActive = false →
    s.cfg.Legal → ReservedAccess s.cfg width off →
    (s.pending = .read width off :: rest →
      step s = .next { s with pending := rest, hostReads := s.hostReads ++ [0#32] }) ∧
    (s.pending = .write width off v :: rest → step s = .next { s with pending := rest })

/-- 20_memory section 5: a host read changes no state of the block, only the list of answers. -/
def Obligations.HostReadHasNoSideEffect : Prop :=
  ∀ (s t : State) (rest : List Event) (width : Nat) (off : Addr), s.pending = .read width off :: rest →
    step s = .next t → ∃ v, t = { s with pending := rest, hostReads := s.hostReads ++ [v] }

/-! ### CTRL and STATUS -/

/-- 10_state R35: the bits of STATUS, that host writes are ignored, and its power-on and CLEAR value. -/
def Obligations.StatusWordHasItsFields : Prop :=
  ∀ s : State,
    (s.statusWord.getLsbD 0 = s.cmdActive ∧ s.statusWord.getLsbD 1 = s.txBusy ∧ s.statusWord.getLsbD 2 = s.rxValid ∧
      s.statusWord.getLsbD 3 = s.maskFresh ∧ s.statusWord.getLsbD 4 = (!s.txBusy && !s.maskFresh) ∧
      s.statusWord.extractLsb' 5 3 = 0#3 ∧ s.statusWord.extractLsb' 8 4 = s.err.code ∧
      s.statusWord.extractLsb' 12 20 = 0#20) ∧
    (∀ v rest, s.cmdActive = false → s.pending = .write 4 0x008#19 v :: rest →
      step s = .next { s with pending := rest }) ∧
    (∀ rest, s.pending = .powerOn :: rest → ∃ t, step s = .next t ∧ t.statusWord = 0x00000010#32) ∧
    (∃ t, exec .clear s = .next t ∧ t.statusWord = 0x00000010#32)

/-- 10_state R33: CTRL's two fields, that bits 31:2 read 0 and ignore writes, its power-on value and what CLEAR does to
it. -/
def Obligations.CtrlHasItsFields : Prop :=
  ∀ s : State,
    (s.ctrlWord.getLsbD 0 = s.maskEn ∧ s.ctrlWord.getLsbD 1 = s.started ∧ s.ctrlWord.extractLsb' 2 30 = 0#30) ∧
    (∀ v rest, s.cmdActive = false → s.pending = .write 4 0x000#19 v :: rest →
      ∃ t, step s = .next t ∧ t.ctrlWord = v &&& 0x00000003#32) ∧
    (∀ rest, s.pending = .powerOn :: rest → ∃ t, step s = .next t ∧ t.ctrlWord = 0#32) ∧
    (∃ t, exec .clear s = .next t ∧ t.maskEn = s.maskEn ∧ t.started = false)

/-- 10_state R37 to R39: which steps set and which clear TX_BUSY, RX_VALID and MASK_FRESH. -/
def Obligations.StatusFlagsHaveTheirSetters : Prop :=
  ∀ s t : State, step s = .next t →
    (s.txBusy = false → t.txBusy = true → (∃ op len, NextIsCommand s (.encode op len)) ∧ t.err = .ok) ∧
    (s.txBusy = true → t.txBusy = false →
      NextIsCommand s .flush ∨ NextIsCommand s .clear ∨ NextIsPowerOn s) ∧
    (s.rxValid = false → t.rxValid = true → NextIsCommand s .decode ∧ t.err = .ok) ∧
    (s.rxValid = true → t.rxValid = false →
      NextIsCommand s .decode ∨ NextIsCommand s .drain ∨ NextIsCommand s .clear ∨ NextIsPowerOn s) ∧
    (s.maskFresh = false → t.maskFresh = true → NextIsCommand s .setMaskKey ∧ t.err = .ok) ∧
    (s.maskFresh = true → t.maskFresh = false →
      ((∃ op len, NextIsCommand s (.encode op len)) ∧ s.maskEn = true) ∨ NextIsCommand s .clear ∨ NextIsPowerOn s)

/-- 10_state R41: every command ends with CMD_ACTIVE = 0 and its own result code written over the last one, whatever that
was; an input that is no command and no power-on leaves ERR; power-on and CLEAR set it to OK, which reads 0. -/
def Obligations.ErrIsTheLastCommandsCode : Prop :=
  (∀ (i : Instr) (s t : State), exec i s = .next t →
    t.cmdActive = false ∧ ∀ (c : Status) (a : Bool), exec i { s with err := c, cmdActive := a } = .next t) ∧
  (∀ s t : State, step s = .next t → (∀ i, ¬ NextIsCommand s i) → ¬ NextIsPowerOn s → t.err = s.err) ∧
  (∀ s : State, s.powerOn.err = .ok ∧ (∃ t, exec .clear s = .next t ∧ t.err = .ok) ∧
    s.statusWord.extractLsb' 8 4 = s.err.code) ∧
  Status.code .ok = 0x0#4

/-! ### The mask engine -/

/-- 40_mask_xor R170: byte `i` of MaskXor is `p[i] XOR k[i mod 4]`, and the length is kept. -/
def Obligations.MaskXorWorksByteByByte : Prop :=
  ∀ (p : List Byte) (k : Word), (maskXor p k).length = p.length ∧
    ∀ (i : Nat) (b : Byte), p[i]? = some b → (maskXor p k)[i]? = some (b ^^^ keyByte k (i % 4))

/-- 40_mask_xor section 1, the laws of MaskXor: involution, zero key, length, prefix, period. -/
def Obligations.MaskXorLaws : Prop :=
  (∀ p k, maskXor (maskXor p k) k = p) ∧ (∀ p, maskXor p 0 = p) ∧
  (∀ p k, (maskXor p k).length = p.length) ∧ (∀ p k m, maskXor (p.take m) k = (maskXor p k).take m) ∧
  (∀ (p q : List Byte) (k l : Word) (i : Nat), p[i]? = q[i]? → keyByte k (i % 4) = keyByte l (i % 4) →
    (maskXor p k)[i]? = (maskXor q l)[i]?)

/-- 40_mask_xor R173: a word with CMDOP 0x5 is SET_MASK_KEY, which installs KEY_STAGE, sets MASK_FRESH, clears REFRESH_DUE,
ends OK and changes nothing else, in every state. -/
def Obligations.SetMaskKeyInstallsTheStagedKey : Prop :=
  (∀ w : Word, cmdOp w = 0x5#4 → decodeCommand w = .setMaskKey) ∧
  ∀ s : State, ∃ t, exec .setMaskKey s = .next t ∧ t.refreshDue = false ∧
    t = { s with maskKey := s.keyStage, maskFresh := true, err := .ok, cmdActive := false }

/-- 10_state section 4: only SET_MASK_KEY, CLEAR and power-on change MASK_KEY, and only a host write of KEY_STAGE or power-on
changes KEY_STAGE. -/
def Obligations.MaskKeysHaveTheirWriters : Prop :=
  ∀ s t : State, step s = .next t →
    (t.maskKey ≠ s.maskKey → NextIsCommand s .setMaskKey ∨ NextIsCommand s .clear ∨ NextIsPowerOn s) ∧
    (t.keyStage ≠ s.keyStage →
      (∃ v rest, s.pending = .write 4 0x010#19 v :: rest ∧ t.keyStage = v) ∨ NextIsPowerOn s)

/-! ### DECODE and DRAIN -/

/-- 41_decode R201: with STARTED = 0, ConnectionNotStarted; else with fewer than 2 bytes, Idle; only ERR changes. -/
def Obligations.DecodeGate : Prop :=
  ∀ s : State,
    (s.started = false →
      exec .decode s = .next { s with err := .connectionNotStarted, cmdActive := false }) ∧
    (s.started = true → s.rxs.length < 2 → exec .decode s = .next { s with err := .idle, cmdActive := false })

/-- 41_decode R203: LEN7 = 127 ends with UnsupportedLength after the two header bytes, with what follows them left in the
stream (and the registers of R202 written). -/
def Obligations.DecodeUnsupportedLength : Prop :=
  ∀ (s : State) (b0 b1 : Byte) (rest : List Byte), s.started = true → s.rxs = b0 :: b1 :: rest → b1Len7 b1 = 127 →
    exec .decode s = .next { s with
      rxs := rest, rxHdr := bigEndian16 b0 b1, rxDlen := 0, rxMkey := 0, rxLen := 0, rxValid := false,
      err := .unsupportedLength, cmdActive := false }

/-- 41_decode R204: LEN7 = 126 with fewer than two bytes left ends with TruncatedRead and nothing more read; else RX_DLEN takes
the declared length, E0 * 256 + E1 or LEN7. -/
def Obligations.DecodeDeclaredLength : Prop :=
  (∀ s : State, HeaderRead s → b1Len7 (streamByte s 1) = 126 → s.rxs.length < 4 →
    exec .decode s = .next { s with
      rxs := s.rxs.drop 2, rxHdr := bigEndian16 (streamByte s 0) (streamByte s 1), rxDlen := 0, rxMkey := 0, rxLen := 0,
      rxValid := false, err := .truncatedRead, cmdActive := false }) ∧
  (∀ s : State, HeaderRead s → b1Len7 (streamByte s 1) = 126 → 4 ≤ s.rxs.length →
    ∃ t n, exec .decode s = .next t ∧ t.rxDlen.toNat = (streamByte s 2).toNat * 256 + (streamByte s 3).toNat ∧
      4 ≤ n ∧ t.rxs = s.rxs.drop n) ∧
  (∀ s : State, HeaderRead s → b1Len7 (streamByte s 1) < 126 →
    ∃ t n, exec .decode s = .next t ∧ t.rxDlen.toNat = b1Len7 (streamByte s 1) ∧ 2 ≤ n ∧ t.rxs = s.rxs.drop n)

/-- 41_decode R206: a masked frame's key is the next four bytes, packed into RX_MKEY and gone from the stream; an unmasked
frame's RX_MKEY is 0 and its payload is copied as it is. -/
def Obligations.DecodeMaskKey : Prop :=
  ∀ s : State, s.cfg.Legal → HeaderRead s → b1Len7 (streamByte s 1) ≠ 127 →
    (b1Len7 (streamByte s 1) = 126 → 4 ≤ s.rxs.length) →
    (b1Masked (streamByte s 1) = true → s.cfg.maskAvailMin ≤ s.rxs.length - (frontHeader s - 4)) →
    ∃ t n, exec .decode s = .next t ∧ frontHeader s ≤ n ∧ t.rxs = s.rxs.drop n ∧
      (b1Masked (streamByte s 1) = true → ∀ j < 4, keyByte t.rxMkey j = streamByte s (frontHeader s - 4 + j)) ∧
      (b1Masked (streamByte s 1) = false → t.rxMkey = 0 ∧
        ∀ i < t.rxLen.toNat, t.readBuf .rxbuf i = some (streamByte s (frontHeader s + i)))

/-- 41_decode R205: a masked frame with fewer than MASK_AVAIL_MIN bytes after its length fields ends with MissingMaskKey, its
key not read. -/
def Obligations.DecodeMissingMaskKey : Prop :=
  ∀ s : State, HeaderRead s → b1Masked (streamByte s 1) = true → b1Len7 (streamByte s 1) ≠ 127 →
    (b1Len7 (streamByte s 1) = 126 → 4 ≤ s.rxs.length) →
    s.rxs.length - (frontHeader s - 4) < s.cfg.maskAvailMin →
    exec .decode s = .next { s with
      rxs := s.rxs.drop (frontHeader s - 4), rxHdr := bigEndian16 (streamByte s 0) (streamByte s 1),
      rxDlen := BitVec.ofNat 16 (declaredLength s), rxMkey := 0, rxLen := 0, rxValid := false,
      err := .missingMaskKey, cmdActive := false }

/-- 41_decode R208: where the stream runs out before min(L, RX_CAP) payload bytes, TruncatedRead; the bytes read are unmasked
in RXBUF[0 .. RX_LEN-1] and gone from the stream, and RX_VALID is 0. -/
def Obligations.DecodeTruncatedPayload : Prop :=
  ∀ s : State, s.cfg.Legal → HeaderRead s → b1Len7 (streamByte s 1) ≠ 127 →
    (b1Len7 (streamByte s 1) = 126 → 4 ≤ s.rxs.length) →
    (b1Masked (streamByte s 1) = true → s.cfg.maskAvailMin ≤ s.rxs.length - (frontHeader s - 4)) →
    s.rxs.length - frontHeader s < min (declaredLength s) s.cfg.rxCap →
    ∃ t, exec .decode s = .next t ∧ t.err = .truncatedRead ∧ t.rxValid = false ∧ t.rxs = [] ∧
      t.rxLen.toNat = s.rxs.length - frontHeader s ∧
      ∀ i < t.rxLen.toNat,
        t.readBuf .rxbuf i = some (streamByte s (frontHeader s + i) ^^^ keyByte (frontKey s) (i % 4))

/-- 41_decode R209: with L > RX_CAP and RX_CAP payload bytes in the stream, PayloadTooLarge; RXBUF holds the first RX_CAP
unmasked bytes, RX_VALID is 0 and the rest stays in the stream; if the stream runs out first, TruncatedRead. -/
def Obligations.DecodePayloadTooLarge : Prop :=
  ∀ s : State, s.cfg.Legal → HeaderRead s → b1Len7 (streamByte s 1) ≠ 127 →
    (b1Len7 (streamByte s 1) = 126 → 4 ≤ s.rxs.length) →
    (b1Masked (streamByte s 1) = true → s.cfg.maskAvailMin ≤ s.rxs.length - (frontHeader s - 4)) →
    s.cfg.rxCap < declaredLength s →
    ∃ t, exec .decode s = .next t ∧ t.rxValid = false ∧
      (s.rxs.length - frontHeader s < s.cfg.rxCap → t.err = .truncatedRead) ∧
      (s.cfg.rxCap ≤ s.rxs.length - frontHeader s →
        t.err = .payloadTooLarge ∧ t.rxLen.toNat = s.cfg.rxCap ∧
        t.rxs = s.rxs.drop (frontHeader s + s.cfg.rxCap) ∧
        ∀ i < s.cfg.rxCap,
          t.readBuf .rxbuf i = some (streamByte s (frontHeader s + i) ^^^ keyByte (frontKey s) (i % 4)))

/-- 41_decode R212: a whole frame of at most RX_CAP payload bytes is delivered: RX_VALID, OK, RXBUF[0 .. L-1] the unmasked
payload, RX_LEN = RX_DLEN = L, and RX_HDR and RX_MKEY those of this frame. -/
def Obligations.DecodeDeliversTheFrame : Prop :=
  ∀ s : State, s.cfg.Legal → HeaderRead s → b1Len7 (streamByte s 1) ≠ 127 →
    (b1Len7 (streamByte s 1) = 126 → 4 ≤ s.rxs.length) →
    (b1Masked (streamByte s 1) = true → s.cfg.maskAvailMin ≤ s.rxs.length - (frontHeader s - 4)) →
    declaredLength s ≤ s.cfg.rxCap → frontHeader s + declaredLength s ≤ s.rxs.length →
    ∃ t, exec .decode s = .next t ∧ t.rxValid = true ∧ t.err = .ok ∧
      t.rxLen.toNat = declaredLength s ∧ t.rxDlen = t.rxLen ∧
      t.rxHdr = bigEndian16 (streamByte s 0) (streamByte s 1) ∧ t.rxMkey = frontKey s ∧
      t.rxs = s.rxs.drop (frontHeader s + declaredLength s) ∧
      ∀ i < declaredLength s,
        t.readBuf .rxbuf i = some (streamByte s (frontHeader s + i) ^^^ keyByte (frontKey s) (i % 4))

/-- 41_decode section 1, the outcome table: the phases of DECODE give, in every state with legal parameters, the first row
that applies: status, bytes consumed, RX_VALID, RX_LEN and the header registers. -/
def Obligations.DecodeFollowsTheOutcomeTable : Prop :=
  ∀ s : State, s.cfg.Legal →
    ∃ t, exec .decode s = .next t ∧
      t.err = (decodeOutcome s).status ∧ t.rxs = s.rxs.drop (decodeOutcome s).consumed ∧
      t.rxValid = (decodeOutcome s).rxValid ∧ t.rxLen.toNat = (decodeOutcome s).rxLen ∧
      t.rxHdr = (decodeOutcome s).rxHdr ∧ t.rxDlen.toNat = (decodeOutcome s).rxDlen ∧
      t.rxMkey = (decodeOutcome s).rxMkey

/-- 41_decode section 1: what DECODE leaves unchanged, in every state: every register and buffer but the receive side, every
RXBUF byte from RX_LEN on, all of RXBUF if no header was read; and the stream only loses bytes at its front. -/
def Obligations.DecodeFrame : Prop :=
  ∀ s t : State, exec .decode s = .next t →
    t = { s with rxs := t.rxs, rxbuf := t.rxbuf, rxHdr := t.rxHdr, rxDlen := t.rxDlen, rxLen := t.rxLen,
                 rxMkey := t.rxMkey, rxValid := t.rxValid, err := t.err, cmdActive := false } ∧
    (∀ i, (HeaderRead s → t.rxLen.toNat ≤ i) → s.cfg.Legal → t.readBuf .rxbuf i = s.readBuf .rxbuf i) ∧
    (¬ HeaderRead s → t = { s with err := t.err, cmdActive := false }) ∧
    ∃ taken, s.rxs = taken ++ t.rxs

/-- 10_state R44: RX_HDR takes B0 and B1 as soon as DECODE has read them, whatever becomes of the frame, and its named fields
follow the wire layout; bits 31:16 read 0; host writes are ignored; power-on and CLEAR set it to 0. -/
def Obligations.FrameHeaderIsRecorded : Prop :=
  (∀ (s : State) (b0 b1 : Byte) (rest : List Byte), s.started = true → s.rxs = b0 :: b1 :: rest →
    ∃ t, exec .decode s = .next t ∧
      t.rxHdr.extractLsb' 8 8 = b0 ∧ t.rxHdr.extractLsb' 0 8 = b1 ∧
      t.rxFin = b0.getLsbD 7 ∧ t.rxRsv1 = b0.getLsbD 6 ∧ t.rxRsv2 = b0.getLsbD 5 ∧ t.rxRsv3 = b0.getLsbD 4 ∧
      t.rxOpcode.bits = b0.extractLsb' 0 4 ∧ t.rxMasked = b1.getLsbD 7 ∧ t.rxLen7 = (b1.extractLsb' 0 7).toNat) ∧
  (∀ s : State, (s.readRegister .rxHdr).extractLsb' 0 16 = s.rxHdr ∧
    (s.readRegister .rxHdr).extractLsb' 16 16 = 0#16 ∧ s.powerOn.rxHdr = 0 ∧
    (∃ t, exec .clear s = .next t ∧ t.rxHdr = 0) ∧
    ∀ v rest, s.cmdActive = false → s.pending = .write 4 0x014#19 v :: rest →
      step s = .next { s with pending := rest })

/-- 30_encoding sections 1 and 2, with log 10 (the model's choice: a frame is an instruction whose header byte is outside the
stream it runs on): each of the sixteen frame opcodes is recorded with its FIN and RSV bits as soon as its second header
byte is there, whatever becomes of the frame. -/
def Obligations.FrameInstructionIsRecorded : Prop :=
  ∀ (op : FrameOpcode) (f r1 r2 r3 : Bool) (s : State) (b1 : Byte) (rest : List Byte), s.started = true →
    s.rxs = b1 :: rest →
    ∃ t, exec (frameInstr op f r1 r2 r3) s = .next t ∧
      t.rxFin = f ∧ t.rxRsv1 = r1 ∧ t.rxRsv2 = r2 ∧ t.rxRsv3 = r3 ∧ t.rxOpcode = op ∧
      t.rxHdr.extractLsb' 0 8 = b1

/-- 30_encoding sections 2 to 4 (FRAME_CONTINUATION to FRAME_RESERVED_F, all sixteen), with log 10 (the model's choice: a frame
is an instruction whose header byte is outside the stream it runs on): an unmasked short frame of any opcode, FIN and RSV
bits is accepted and its payload delivered, the stream left at what follows it. -/
def Obligations.FrameOfAnyOpcodeIsDelivered : Prop :=
  ∀ (op : FrameOpcode) (f r1 r2 r3 : Bool) (s : State) (p rest : List Byte), s.cfg.Legal → s.started = true →
    p.length ≤ 125 → p.length ≤ s.cfg.rxCap → s.rxs = lengthByte false p.length :: (p ++ rest) →
    ∃ t, exec (frameInstr op f r1 r2 r3) s = .next t ∧ t.err = .ok ∧ t.rxValid = true ∧
      t.rxOpcode = op ∧ t.rxFin = f ∧ t.rxRsv1 = r1 ∧ t.rxRsv2 = r2 ∧ t.rxRsv3 = r3 ∧
      t.rxLen.toNat = p.length ∧ t.rxDlen.toNat = p.length ∧ t.rxMkey = 0 ∧
      Memory.readBytes t.rxbuf 0 p.length = .ok p ∧ t.rxs = rest ∧
      (∀ i, p.length ≤ i → t.readBuf .rxbuf i = s.readBuf .rxbuf i) ∧
      t = { s with rxs := t.rxs, rxbuf := t.rxbuf, rxHdr := t.rxHdr, rxDlen := t.rxDlen, rxLen := t.rxLen,
                   rxMkey := t.rxMkey, rxValid := t.rxValid, err := t.err, cmdActive := false }

/-- 41_decode R220: a word with CMDOP 0x2 is DRAIN, which clears RX_VALID and RX_LEN, ends OK and changes nothing else, in
every state. -/
def Obligations.DrainReleasesTheSlot : Prop :=
  (∀ w : Word, cmdOp w = 0x2#4 → decodeCommand w = .drain) ∧
  ∀ s : State, exec .drain s = .next { s with rxValid := false, rxLen := 0, err := .ok, cmdActive := false }

/-- 40_mask_xor R175: DECODE never uses MASK_KEY and ENCODE never uses RX_MKEY: each runs the same whatever the other key
is. -/
def Obligations.TheTwoMaskKeysAreIndependent : Prop :=
  (∀ (s t : State) (k : Word), exec .decode s = .next t →
    exec .decode { s with maskKey := k } = .next { t with maskKey := k }) ∧
  (∀ (s t : State) (op : FrameOpcode) (len : Nat) (k : Word), exec (.encode op len) s = .next t →
    exec (.encode op len) { s with rxMkey := k } = .next { t with rxMkey := k })

/-! ### ENCODE and FLUSH -/

/-- 42_encode R251: SendBusy first, then PayloadTooLarge, before any write; only ERR changes. -/
def Obligations.EncodeRefusesBeforeAnyWrite : Prop :=
  ∀ (s : State) (op : FrameOpcode) (len : Nat),
    (s.txBusy = true → exec (.encode op len) s = .next { s with err := .sendBusy, cmdActive := false }) ∧
    (s.txBusy = false → s.cfg.txCap < len →
      exec (.encode op len) s = .next { s with err := .payloadTooLarge, cmdActive := false })

/-- 42_encode R252: with the checks passed and the payload written in PIN, ENCODE builds the frame byte by byte in TXBUF, sets
TX_LEN, TX_BUSY and (if masked) clears MASK_FRESH, ends OK and changes nothing else; an unwritten PIN byte is the fault
Unwritten. -/
def Obligations.EncodeBuildsTheFrame : Prop :=
  ∀ (s : State) (op : FrameOpcode) (len : Nat), s.cfg.Legal → s.txBusy = false → len ≤ s.cfg.txCap →
    (Written s .pin len →
      ∃ t p, exec (.encode op len) s = .next t ∧
        p = 2 + (if len ≤ 125 then 0 else 2) + (if s.maskEn then 4 else 0) ∧
        t.readBuf .txbuf 0 = some (0x80#8 ||| op.bits.setWidth 8) ∧
        (len ≤ 125 → t.readBuf .txbuf 1 = some ((if s.maskEn then 0x80#8 else 0x00#8) ||| BitVec.ofNat 8 len)) ∧
        (125 < len → t.readBuf .txbuf 1 = some ((if s.maskEn then 0x80#8 else 0x00#8) ||| 0x7E#8) ∧
          t.readBuf .txbuf 2 = some (BitVec.ofNat 8 (len / 256)) ∧
          t.readBuf .txbuf 3 = some (BitVec.ofNat 8 (len % 256))) ∧
        (s.maskEn = true → ∀ j < 4, t.readBuf .txbuf (p - 4 + j) = some (keyByte s.maskKey j)) ∧
        (∀ i < len, ∃ b, s.readBuf .pin i = some b ∧
          t.readBuf .txbuf (p + i) = some (if s.maskEn then b ^^^ keyByte s.maskKey (i % 4) else b)) ∧
        (∀ i, p + len ≤ i → t.readBuf .txbuf i = s.readBuf .txbuf i) ∧
        t.txLen.toNat = p + len ∧
        t = { s with txbuf := t.txbuf, txLen := t.txLen, txBusy := true,
                     maskFresh := if s.maskEn then false else s.maskFresh, err := .ok, cmdActive := false }) ∧
    (∀ i < len, s.readBuf .pin i = none → Written s .pin i →
      exec (.encode op len) s = .fault (.unwritten .pin i))

/-- 42_encode section 1: the frame's size, between 2 and TX_CAP + 8. -/
def Obligations.EncodedFrameSize : Prop :=
  ∀ (s t : State) (op : FrameOpcode) (len : Nat), s.cfg.Legal → s.txBusy = false →
    exec (.encode op len) s = .next t → t.err = .ok →
    t.txLen.toNat = 2 + (if 126 ≤ len then 2 else 0) + (if s.maskEn then 4 else 0) + len ∧
      2 ≤ t.txLen.toNat ∧ t.txLen.toNat ≤ s.cfg.txCap + 8

/-- 42_encode R260: a word with CMDOP 0x4 is FLUSH, which stops with ConnectionNotStarted or Idle with nothing written; else it offers TXBUF[0 .. TX_LEN-1],
frees the slot whatever the answer, ends OK or TransportError, and leaves TX_LEN, TXBUF and everything else. (A queued
frame has at least 2 bytes, 10_state R59.) -/
def Obligations.FlushOffersTheQueuedFrame : Prop :=
  (∀ w : Word, cmdOp w = 0x4#4 → decodeCommand w = .flush) ∧
  ∀ s : State,
    (s.started = false → exec .flush s = .next { s with err := .connectionNotStarted, cmdActive := false }) ∧
    (s.started = true → s.txBusy = false → exec .flush s = .next { s with err := .idle, cmdActive := false }) ∧
    (s.started = true → s.txBusy = true → 2 ≤ s.txLen.toNat →
      ∀ f, Memory.readBytes s.txbuf 0 s.txLen.toNat = .ok f →
      ∃ t, exec .flush s = .next t ∧
        ((t.err = .ok ∧ t.txs = s.txs ++ f) ∨
          (t.err = .transportError ∧ ∃ j < f.length, t.txs = s.txs ++ f.take j)) ∧
        t = { s with txs := t.txs, txAnswers := t.txAnswers, txDraws := t.txDraws, txBusy := false,
                     err := t.err, cmdActive := false })

/-- 20_memory R94: the transport's answer is a free input: under `ok` TXS gains the whole frame, and for every j below the
frame's length an `err` answer makes TXS gain exactly its first j bytes. -/
def Obligations.EveryTransportAnswerIsPossible : Prop :=
  ∀ (s : State) (f : List Byte) (answers : List TxAnswer), s.started = true → s.txBusy = true →
    Memory.readBytes s.txbuf 0 s.txLen.toNat = .ok f →
    (∃ t, exec .flush { s with txAnswers := .ok :: answers } = .next t ∧ t.err = .ok ∧ t.txs = s.txs ++ f) ∧
    (∀ j < f.length, ∃ t, exec .flush { s with txAnswers := .err j :: answers } = .next t ∧
      t.err = .transportError ∧ t.txs = s.txs ++ f.take j)

/-- 20_memory section 3: no step takes a byte out of the transmit log. -/
def Obligations.TransmitLogOnlyGrows : Prop :=
  ∀ s t : State, step s = .next t → ∃ sent, t.txs = s.txs ++ sent

/-- 20_memory section 3: only FLUSH writes the transmit log; only DECODE (and the frame it runs) reads the receive stream. -/
def Obligations.StreamsHaveTheirUsers : Prop :=
  ∀ (i : Instr) (s t : State), exec i s = .next t →
    (i ≠ .flush → t.txs = s.txs) ∧ (¬ ReadsStream i → t.rxs = s.rxs)

/-- 10_state section 7: no command writes PIN or KEYIN; only ENCODE writes TXBUF, only DECODE (and the frame it runs) RXBUF,
only DERIVE_KEY ACCEPT; and no command writes KEY_STAGE, MASK_EN, the parameters or the inputs to come. -/
def Obligations.BuffersHaveTheirWriters : Prop :=
  ∀ (i : Instr) (s t : State), exec i s = .next t →
    t.pin = s.pin ∧ t.keyin = s.keyin ∧ t.keyStage = s.keyStage ∧ t.maskEn = s.maskEn ∧ t.cfg = s.cfg ∧
    t.pending = s.pending ∧ t.hostReads = s.hostReads ∧
    ((∀ op len, i ≠ .encode op len) → t.txbuf = s.txbuf) ∧
    (¬ ReadsStream i → t.rxbuf = s.rxbuf) ∧
    ((∀ n, i ≠ .deriveKey n) → t.accept = s.accept)

/-! ### The key deriver -/

/-- 43_handshake_key R300: a word with CMDOP 0x6 is DERIVE_KEY of its ARG; above KEY_MAX, KeyTooLong and ACCEPT unchanged; else ACCEPT[0 .. 27] is Base64(SHA-1(key ‖ GUID)) of
the key in KEYIN, OK, and nothing else changes; an unwritten KEYIN byte is the fault Unwritten. -/
def Obligations.DeriveKeyWritesTheAcceptKey : Prop :=
  (∀ w : Word, cmdOp w = 0x6#4 → decodeCommand w = .deriveKey (cmdArg w)) ∧
  ∀ (s : State) (n : Nat),
    (s.cfg.keyMax < n → exec (.deriveKey n) s = .next { s with err := .keyTooLong, cmdActive := false }) ∧
    (n ≤ s.cfg.keyMax → ∀ key, Memory.readBytes s.keyin 0 n = .ok key →
      ∃ t, exec (.deriveKey n) s = .next t ∧
        (∀ j < 28, t.readBuf .accept j = (base64 (sha1 (key ++ guid)))[j]?) ∧
        (∀ j, 28 ≤ j → t.readBuf .accept j = s.readBuf .accept j) ∧
        t = { s with accept := t.accept, err := .ok, cmdActive := false }) ∧
    (n ≤ s.cfg.keyMax → ∀ i < n, s.readBuf .keyin i = none → Written s .keyin i →
      exec (.deriveKey n) s = .fault (.unwritten .keyin i))

/-- 43_handshake_key section 3 (general knowledge the spec supplies): the padded message is M, 0x80, the least number of zero
bytes that makes the length 56 modulo 64, and the bit length in 8 big-endian bytes; for a key of n bytes it has 1, 2 or 3
blocks. -/
def Obligations.Sha1PaddingIsMinimal : Prop :=
  (∀ m : List Byte, ∃ z, sha1Pad m = m ++ [0x80#8] ++ List.replicate z 0x00#8 ++ bigEndian8 (8 * m.length) ∧
    (m.length + 1 + z) % 64 = 56 ∧ (∀ y, (m.length + 1 + y) % 64 = 56 → z ≤ y) ∧ (sha1Pad m).length % 64 = 0) ∧
  (∀ key : List Byte, key.length ≤ 128 →
    (sha1Pad (key ++ guid)).length = if key.length ≤ 19 then 64 else if key.length ≤ 83 then 128 else 192)

/-- 43_handshake_key sections 1 and 4: an accept key has 28 characters, the last `=`, the one before it of a value that is a
multiple of 4, and every other one of the alphabet. The alphabet and the last group's two zero bits rest on log 15
(PRESUMED: the spec's own general knowledge, R309, R310). -/
def Obligations.AcceptKeyHasItsShape : Prop :=
  ∀ key : List Byte, (acceptKey key).length = 28 ∧ (acceptKey key)[27]? = some 0x3D#8 ∧
    (∃ v : BitVec 6, v.toNat % 4 = 0 ∧ (acceptKey key)[26]? = some (base64Char v)) ∧
    ∀ j < 27, ∃ v : BitVec 6, (acceptKey key)[j]? = some (base64Char v)

/-- 43_handshake_key R312: the source's test vector, run by the machine: DERIVE_KEY 24 on the key
"dGhlIHNhbXBsZSBub25jZQ==" leaves "s3pPLMBiTxaQ9kYGzzhZRbK+xOo=" in ACCEPT; the digest is the one the rule gives. -/
def Obligations.RfcAcceptKeyVector : Prop :=
  let key : List Byte :=
    [0x64#8, 0x47#8, 0x68#8, 0x6C#8, 0x49#8, 0x48#8, 0x4E#8, 0x68#8, 0x62#8, 0x58#8, 0x42#8, 0x73#8] ++
    [0x5A#8, 0x53#8, 0x42#8, 0x75#8, 0x62#8, 0x32#8, 0x35#8, 0x6A#8, 0x5A#8, 0x51#8, 0x3D#8, 0x3D#8]
  sha1 (key ++ guid) =
    [0xB3#8, 0x7A#8, 0x4F#8, 0x2C#8, 0xC0#8, 0x62#8, 0x4F#8, 0x16#8, 0x90#8, 0xF6#8] ++
    [0x46#8, 0x06#8, 0xCF#8, 0x38#8, 0x59#8, 0x45#8, 0xB2#8, 0xBE#8, 0xC4#8, 0xEA#8] ∧
  ∃ t, exec (.deriveKey 24) { State.reset with keyin := Memory.writeBytes [] 0 key } = .next t ∧
    Memory.readBytes t.accept 0 28 = .ok (
      [0x73#8, 0x33#8, 0x70#8, 0x50#8, 0x4C#8, 0x4D#8, 0x42#8, 0x69#8, 0x54#8, 0x78#8, 0x61#8, 0x51#8, 0x39#8, 0x6B#8] ++
      [0x59#8, 0x47#8, 0x7A#8, 0x7A#8, 0x68#8, 0x5A#8, 0x52#8, 0x62#8, 0x4B#8, 0x2B#8, 0x78#8, 0x4F#8, 0x6F#8, 0x3D#8])

/-- 43_handshake_key section 5: the accept key depends on the key's bytes alone: in two states that agree on KEY_MAX and on
KEYIN[0 .. n-1], DERIVE_KEY leaves the same result code and the same ACCEPT[0 .. 27] if it ends OK. -/
def Obligations.AcceptKeyDependsOnTheKeyAlone : Prop :=
  ∀ (s u s' u' : State) (n : Nat), s.cfg.keyMax = u.cfg.keyMax →
    (∀ i < n, s.readBuf .keyin i = u.readBuf .keyin i) →
    exec (.deriveKey n) s = .next s' → exec (.deriveKey n) u = .next u' →
    s'.err = u'.err ∧ (s'.err = .ok → ∀ j < 28, s'.readBuf .accept j = u'.readBuf .accept j)

/-! ### CLEAR, reserved commands, reset -/

/-- 44_control R342, R343: a word with CMDOP 0x7 is CLEAR; what CLEAR sets, that it ends OK and changes nothing else, in
every state; and that CLEAR twice is CLEAR once. -/
def Obligations.ClearReturnsTheDefaults : Prop :=
  (∀ w : Word, cmdOp w = 0x7#4 → decodeCommand w = .clear) ∧
  ∀ s : State, ∃ t, exec .clear s = .next t ∧
    t = { s with txBusy := false, txLen := 0, rxValid := false, rxLen := 0, rxHdr := 0, rxDlen := 0, rxMkey := 0,
                 maskKey := 0, maskFresh := false, started := false, err := .ok, cmdActive := false } ∧
    t.refreshDue = true ∧ exec .clear t = .next t

/-- 44_control R345: a word whose CMDOP is 0x0 or 0x8 to 0xF is a reserved command (RESERVED_CMD_0, RESERVED_CMD_8 to
RESERVED_CMD_F), and every one of these ends with BadCommand and changes nothing else, in every state. -/
def Obligations.ReservedCommandsAreBadCommands : Prop :=
  (∀ w : Word, (cmdOp w = 0x0#4 ∨ 0x8#4 ≤ cmdOp w) ↔ decodeCommand w ∈ reservedCommands) ∧
  ∀ i ∈ reservedCommands, ∀ s : State, exec i s = .next { s with err := .badCommand, cmdActive := false }

/-- 70_reset_and_hazards R400, for every parameter value: after reset every register reads its power-on value and every
buffer byte is unwritten; power-on of a running machine gives the same and keeps both streams. -/
def Obligations.ResetLeavesThePowerOnValues : Prop :=
  (∀ (c : Config) (s : State), s = State.resetWith c ∨ (∃ u : State, s = u.powerOn) →
    (∀ r, s.readRegister r = if r = .status then 0x00000010#32 else 0#32) ∧
    (∀ b i, s.readBuf b i = none) ∧ s.err = .ok ∧ s.cmdActive = false) ∧
  (∀ (s : State) (rest : List Event), s.pending = .powerOn :: rest →
    ∃ t, step s = .next t ∧ t = State.powerOn { s with pending := rest } ∧ t.rxs = s.rxs ∧ t.txs = s.txs)

/-- 70_reset_and_hazards section 1: CLEAR gives the register values of power-on except CTRL.MASK_EN and KEY_STAGE, and keeps
every buffer byte. -/
def Obligations.ClearMatchesPowerOn : Prop :=
  ∀ s : State, ∃ t, exec .clear s = .next t ∧
    (∀ r, r ≠ .ctrl → r ≠ .keyStage → t.readRegister r = s.powerOn.readRegister r) ∧
    t.started = s.powerOn.started ∧ t.maskEn = s.maskEn ∧ t.keyStage = s.keyStage ∧
    ∀ b i, t.readBuf b i = s.readBuf b i

/-! ### The whole machine -/

/-- 60_exceptions sections 1 and 6: no command is refused, and a command stops only at a buffer byte it reads (ENCODE of PIN,
DERIVE_KEY of KEYIN, FLUSH of TXBUF; the others read none) that no write has given a value; in a state of the invariant
FLUSH never stops. -/
def Obligations.CommandsStopOnlyAtUnwrittenBytes : Prop :=
  (∀ (i : Instr) (s : State), (∃ t, exec i s = .next t) ∨
    ∃ b j, ReadsByte i s b j ∧ exec i s = .fault (.unwritten b j) ∧ s.readBuf b j = none) ∧
  (∀ s : State, s.OutboundOk → ∃ t, exec .flush s = .next t)

/-- 10_state section 10: every step keeps the invariant: legal parameters, canonical buffers within their capacities, RX_LEN
within RX_CAP and counting written bytes, a valid payload the declared one, a queued frame one the encode rule produced,
TX_LEN within TX_CAP + 8, CMD_ACTIVE 0. -/
def Obligations.EveryStepKeepsTheInvariant : Prop :=
  ∀ s t : State, s.Inv → step s = .next t → t.Inv

/-- 10_state section 10: the invariant holds after reset, for every legal parameter value, State.reset's among them. -/
def Obligations.ResetMeetsTheInvariant : Prop :=
  (∀ c : Config, c.Legal → (State.resetWith c).Inv) ∧ State.reset.Inv

/-- 42_encode section 1 (the source's testable properties): a payload encoded by one machine, flushed with the transport's
answer `ok`, and appended to the empty receive stream of another started machine, is delivered there by DECODE unchanged, with
its opcode and length, the masked frame too where enough bytes follow its length fields. -/
def Obligations.EncodeFlushDecodeRoundTrip : Prop :=
  ∀ (s s1 s2 r : State) (op : FrameOpcode) (payload more : List Byte) (answers : List TxAnswer),
    s.cfg.Legal → r.cfg.Legal → s.started = true → s.txBusy = false → s.txAnswers = .ok :: answers → s.txs = [] →
    payload.length ≤ s.cfg.txCap → payload.length ≤ r.cfg.rxCap →
    Memory.readBytes s.pin 0 payload.length = .ok payload →
    (s.maskEn = true → r.cfg.maskAvailMin ≤ 4 + payload.length + more.length) →
    exec (.encode op payload.length) s = .next s1 → exec .flush s1 = .next s2 →
    r.started = true → r.rxs = s2.txs ++ more →
    ∃ t, exec .decode r = .next t ∧ t.err = .ok ∧ t.rxValid = true ∧
      Memory.readBytes t.rxbuf 0 payload.length = .ok payload ∧ t.rxLen.toNat = payload.length ∧
      t.rxDlen.toNat = payload.length ∧ t.rxOpcode = op ∧ t.rxFin = true ∧ t.rxMasked = s.maskEn ∧
      t.rxMkey = (if s.maskEn then s.maskKey else 0) ∧ t.rxs = more
end

