-- ==== Sys2Proof/Laws/Decode.lean ====
section
/-! SUPPORT. The decoder's field readers on the encoder's words. -/

namespace Sys2Proof

@[simp] theorem FrameOpcode.ofBits_bits (op : FrameOpcode) : FrameOpcode.ofBits op.bits = op := by
  cases op <;> decide

@[simp] theorem FrameOpcode.bits_ofBits : ∀ b : BitVec 4, (FrameOpcode.ofBits b).bits = b := by decide

@[simp] theorem cmdOp_commandWord (op fopc : BitVec 4) (arg : Nat) : cmdOp (commandWord op fopc arg) = op := by
  apply BitVec.eq_of_getLsbD_eq
  intro i hi
  have h1 : i < 16 := by omega
  have h2 : i < 32 := by omega
  simp [cmdOp, commandWord, hi, h1, h2]

@[simp] theorem cmdFopc_commandWord (op fopc : BitVec 4) (arg : Nat) :
    cmdFopc (commandWord op fopc arg) = fopc := by
  apply BitVec.eq_of_getLsbD_eq
  intro i hi
  simp [cmdFopc, commandWord, hi]
  grind

/-- The ARG field holds the number it was given, if it fits. -/
theorem cmdArg_commandWord (op fopc : BitVec 4) (arg : Nat) (h : arg < 65536) :
    cmdArg (commandWord op fopc arg) = arg := by
  have field : (commandWord op fopc arg).extractLsb' 16 16 = BitVec.ofNat 16 arg := by
    apply BitVec.eq_of_getLsbD_eq
    intro i hi
    have h1 : 16 + i < 32 := by omega
    have h2 : ¬ 16 + i < 4 := by omega
    have h3 : i < 32 := by omega
    simp [commandWord, hi, h1, h2, h3, BitVec.getLsbD_ofNat, -BitVec.getLsbD_eq_getElem]
    grind
  simp [cmdArg, field]
  omega

@[simp] theorem b0Opcode_headerByte (f r1 r2 r3 : Bool) (op : FrameOpcode) :
    b0Opcode (headerByte f r1 r2 r3 op) = op := by
  cases op <;> revert f r1 r2 r3 <;> decide

@[simp] theorem b0Fin_headerByte (f r1 r2 r3 : Bool) (op : FrameOpcode) :
    b0Fin (headerByte f r1 r2 r3 op) = f := by
  cases op <;> revert f r1 r2 r3 <;> decide

@[simp] theorem b0Rsv1_headerByte (f r1 r2 r3 : Bool) (op : FrameOpcode) :
    b0Rsv1 (headerByte f r1 r2 r3 op) = r1 := by
  cases op <;> revert f r1 r2 r3 <;> decide

@[simp] theorem b0Rsv2_headerByte (f r1 r2 r3 : Bool) (op : FrameOpcode) :
    b0Rsv2 (headerByte f r1 r2 r3 op) = r2 := by
  cases op <;> revert f r1 r2 r3 <;> decide

@[simp] theorem b0Rsv3_headerByte (f r1 r2 r3 : Bool) (op : FrameOpcode) :
    b0Rsv3 (headerByte f r1 r2 r3 op) = r3 := by
  cases op <;> revert f r1 r2 r3 <;> decide

/-- Every byte is the header byte of its own fields. -/
@[simp] theorem headerByte_fields :
    ∀ b : Byte, headerByte (b0Fin b) (b0Rsv1 b) (b0Rsv2 b) (b0Rsv3 b) (b0Opcode b) = b := by
  decide

end Sys2Proof
end

