-- ==== Sys2Proof/Laws/Memory.lean ====
section
/-! SUPPORT. The buffers' operations: a read after a write, the canonical form, and byte runs. -/

namespace Sys2Proof.Machine

/-- A read after a write of one byte. -/
theorem Memory.read_write (m : Memory) (i j : Nat) (b : Byte) :
    Memory.read (Memory.write m i b) j = if j = i then some b else Memory.read m j := by
  induction m with
  | nil => simp [Memory.write, Memory.read]
  | cons c rest ih =>
    obtain ⟨k, v⟩ := c
    simp only [Memory.write]
    split
    · simp [Memory.read]
    · split
      · subst_vars
        simp only [Memory.read]
        split <;> simp_all
      · simp only [Memory.read, ih]
        split <;> split <;> simp_all

/-- Every entry after a write is the written byte or was there before. -/
theorem Memory.mem_write {m : Memory} {i : Nat} {b : Byte} {c : Host.Cell}
    (h : c ∈ Memory.write m i b) : c = (i, b) ∨ c ∈ m := by
  induction m with
  | nil => simpa [Memory.write] using h
  | cons d rest ih =>
    obtain ⟨k, v⟩ := d
    simp only [Memory.write] at h
    split at h
    · simpa using h
    · split at h
      · rcases List.mem_cons.1 h with h | h
        · exact .inl h
        · exact .inr (List.mem_cons_of_mem _ h)
      · rcases List.mem_cons.1 h with h | h
        · exact .inr (h ▸ List.mem_cons_self)
        · exact (ih h).imp id (List.mem_cons_of_mem _)

/-- A write keeps the canonical form. -/
theorem Memory.write_wf {m : Memory} (i : Nat) (b : Byte) (h : Memory.wf m) : Memory.wf (Memory.write m i b) := by
  induction m with
  | nil => simp [Memory.write]
  | cons d rest ih =>
    obtain ⟨k, v⟩ := d
    obtain ⟨hk, hrest⟩ := List.pairwise_cons.1 h
    simp only [Memory.write]
    split
    · rename_i hlt
      refine List.pairwise_cons.2 ⟨fun c hc => ?_, h⟩
      rcases List.mem_cons.1 hc with rfl | hc
      · exact hlt
      · exact lt_trans hlt (hk c hc)
    · split
      · subst_vars
        exact List.pairwise_cons.2 ⟨hk, hrest⟩
      · refine List.pairwise_cons.2 ⟨fun c hc => ?_, ih hrest⟩
        rcases Memory.mem_write hc with rfl | hc
        · show k < i
          omega
        · exact hk c hc

/-- A run of writes keeps the canonical form. -/
theorem Memory.writeBytes_wf {m : Memory} (i : Nat) (bs : List Byte) (h : Memory.wf m) :
    Memory.wf (Memory.writeBytes m i bs) := by
  induction bs generalizing m i with
  | nil => exact h
  | cons b bs ih => exact ih (i + 1) (Memory.write_wf i b h)

/-- Every entry after a run of writes lies in the run or was there before. -/
theorem Memory.mem_writeBytes {m : Memory} {i : Nat} {bs : List Byte} {c : Host.Cell}
    (h : c ∈ Memory.writeBytes m i bs) : (i ≤ c.1 ∧ c.1 < i + bs.length) ∨ c ∈ m := by
  induction bs generalizing m i with
  | nil => exact .inr h
  | cons b bs ih =>
    rcases ih h with ⟨h1, h2⟩ | h
    · left
      simp only [List.length_cons]
      omega
    · rcases Memory.mem_write h with rfl | h
      · left
        simp
      · exact .inr h

/-- A read after a run of writes. -/
theorem Memory.read_writeBytes (m : Memory) (i j : Nat) (bs : List Byte) :
    Memory.read (Memory.writeBytes m i bs) j =
      if i ≤ j ∧ j < i + bs.length then bs[j - i]? else Memory.read m j := by
  induction bs generalizing m i with
  | nil => simp only [Memory.writeBytes, List.length_nil]; split <;> first | omega | rfl
  | cons b bs ih =>
    simp only [Memory.writeBytes, ih, Memory.read_write, List.length_cons]
    by_cases h : j = i
    · subst h
      simp
    · by_cases h2 : i + 1 ≤ j ∧ j < i + 1 + bs.length
      · have h3 : i ≤ j ∧ j < i + (bs.length + 1) := by omega
        have h4 : j - i = (j - (i + 1)) + 1 := by omega
        simp [h2, h3, h4]
      · have h3 : ¬ (i ≤ j ∧ j < i + (bs.length + 1)) := by omega
        rw [if_neg h2, if_neg h3, if_neg h]

/-- A run of reads answers the bytes that are there. -/
theorem Memory.readBytes_eq_ok {m : Memory} {i n : Nat} {bs : List Byte} :
    Memory.readBytes m i n = .ok bs ↔ bs.length = n ∧ ∀ j < n, Memory.read m (i + j) = bs[j]? := by
  induction n generalizing i bs with
  | zero =>
    simp [Memory.readBytes, eq_comm (a := ([] : List Byte))]
  | succ n ih =>
    simp only [Memory.readBytes]
    constructor
    · intro h
      split at h
      · cases h
      · rename_i b hb
        split at h
        · cases h
        · rename_i rest hrest
          cases h
          obtain ⟨hlen, hall⟩ := ih.1 hrest
          refine ⟨by simp [hlen], fun j hj => ?_⟩
          cases j with
          | zero => simpa using hb
          | succ j =>
            have h2 := hall j (by omega)
            rw [show i + 1 + j = i + (j + 1) by omega] at h2
            simpa using h2
    · rintro ⟨hlen, hall⟩
      cases bs with
      | nil => simp at hlen
      | cons b rest =>
        have h0 := hall 0 (by omega)
        simp only [Nat.add_zero, List.getElem?_cons_zero] at h0
        have hrest : Memory.readBytes m (i + 1) n = .ok rest := by
          refine ih.2 ⟨by simpa using hlen, fun j hj => ?_⟩
          have h2 := hall (j + 1) (by omega)
          rw [show i + (j + 1) = i + 1 + j by omega] at h2
          simpa using h2
        simp [h0, hrest]

/-- A run of reads that fails names the first byte that holds no value. -/
theorem Memory.readBytes_eq_error {m : Memory} {i n j : Nat} (h : Memory.readBytes m i n = .error j) :
    i ≤ j ∧ j < i + n ∧ Memory.read m j = none ∧ ∀ k, i ≤ k → k < j → (Memory.read m k).isSome := by
  induction n generalizing i with
  | zero => cases h
  | succ n ih =>
    simp only [Memory.readBytes] at h
    split at h
    · rename_i hnone
      cases h
      exact ⟨le_refl _, by omega, hnone, fun k h1 h2 => by omega⟩
    · rename_i b hb
      split at h
      · rename_i j' hj
        cases h
        obtain ⟨h1, h2, h3, h4⟩ := ih hj
        refine ⟨by omega, by omega, h3, fun k hk1 hk2 => ?_⟩
        rcases Nat.eq_or_lt_of_le hk1 with rfl | hlt
        · simp [hb]
        · exact h4 k hlt hk2
      · cases h

/-- What was written as a run reads back as that run. -/
theorem Memory.readBytes_writeBytes (m : Memory) (i : Nat) (bs : List Byte) :
    Memory.readBytes (Memory.writeBytes m i bs) i bs.length = .ok bs := by
  refine Memory.readBytes_eq_ok.2 ⟨rfl, fun j hj => ?_⟩
  have h : i ≤ i + j ∧ i + j < i + bs.length := by omega
  simp [Memory.read_writeBytes, h]

/-- The reset buffers, with nothing listed, are canonical. -/
theorem Memory.nil_wf : Memory.wf [] := List.Pairwise.nil

end Sys2Proof.Machine
end

