-- ==== Sys2Proof/Laws/State.lean ====
section
/-! SUPPORT. What each named update of the state does to each field. -/

namespace Sys2Proof.Machine

/-! `State.beginCommand` -/

@[simp] theorem State.beginCommand_cfg (s : State) : s.beginCommand.cfg = s.cfg := rfl
@[simp] theorem State.beginCommand_maskEn (s : State) : s.beginCommand.maskEn = s.maskEn := rfl
@[simp] theorem State.beginCommand_started (s : State) : s.beginCommand.started = s.started := rfl
@[simp] theorem State.beginCommand_cmdActive (s : State) : s.beginCommand.cmdActive = true := rfl
@[simp] theorem State.beginCommand_txBusy (s : State) : s.beginCommand.txBusy = s.txBusy := rfl
@[simp] theorem State.beginCommand_rxValid (s : State) : s.beginCommand.rxValid = s.rxValid := rfl
@[simp] theorem State.beginCommand_maskFresh (s : State) : s.beginCommand.maskFresh = s.maskFresh := rfl
@[simp] theorem State.beginCommand_err (s : State) : s.beginCommand.err = s.err := rfl
@[simp] theorem State.beginCommand_maskKey (s : State) : s.beginCommand.maskKey = s.maskKey := rfl
@[simp] theorem State.beginCommand_keyStage (s : State) : s.beginCommand.keyStage = s.keyStage := rfl
@[simp] theorem State.beginCommand_rxHdr (s : State) : s.beginCommand.rxHdr = s.rxHdr := rfl
@[simp] theorem State.beginCommand_rxDlen (s : State) : s.beginCommand.rxDlen = s.rxDlen := rfl
@[simp] theorem State.beginCommand_rxLen (s : State) : s.beginCommand.rxLen = s.rxLen := rfl
@[simp] theorem State.beginCommand_rxMkey (s : State) : s.beginCommand.rxMkey = s.rxMkey := rfl
@[simp] theorem State.beginCommand_txLen (s : State) : s.beginCommand.txLen = s.txLen := rfl
@[simp] theorem State.beginCommand_pin (s : State) : s.beginCommand.pin = s.pin := rfl
@[simp] theorem State.beginCommand_txbuf (s : State) : s.beginCommand.txbuf = s.txbuf := rfl
@[simp] theorem State.beginCommand_rxbuf (s : State) : s.beginCommand.rxbuf = s.rxbuf := rfl
@[simp] theorem State.beginCommand_keyin (s : State) : s.beginCommand.keyin = s.keyin := rfl
@[simp] theorem State.beginCommand_accept (s : State) : s.beginCommand.accept = s.accept := rfl
@[simp] theorem State.beginCommand_rxs (s : State) : s.beginCommand.rxs = s.rxs := rfl
@[simp] theorem State.beginCommand_txs (s : State) : s.beginCommand.txs = s.txs := rfl
@[simp] theorem State.beginCommand_pending (s : State) : s.beginCommand.pending = s.pending := rfl
@[simp] theorem State.beginCommand_hostReads (s : State) : s.beginCommand.hostReads = s.hostReads := rfl
@[simp] theorem State.beginCommand_txAnswers (s : State) : s.beginCommand.txAnswers = s.txAnswers := rfl
@[simp] theorem State.beginCommand_txDraws (s : State) : s.beginCommand.txDraws = s.txDraws := rfl

/-! `State.raise` -/

@[simp] theorem State.raise_cfg (s : State) (c : Status) : (State.raise c s).cfg = s.cfg := rfl
@[simp] theorem State.raise_maskEn (s : State) (c : Status) : (State.raise c s).maskEn = s.maskEn := rfl
@[simp] theorem State.raise_started (s : State) (c : Status) : (State.raise c s).started = s.started := rfl
@[simp] theorem State.raise_cmdActive (s : State) (c : Status) : (State.raise c s).cmdActive = false := rfl
@[simp] theorem State.raise_txBusy (s : State) (c : Status) : (State.raise c s).txBusy = s.txBusy := rfl
@[simp] theorem State.raise_rxValid (s : State) (c : Status) : (State.raise c s).rxValid = s.rxValid := rfl
@[simp] theorem State.raise_maskFresh (s : State) (c : Status) : (State.raise c s).maskFresh = s.maskFresh := rfl
@[simp] theorem State.raise_err (s : State) (c : Status) : (State.raise c s).err = c := rfl
@[simp] theorem State.raise_maskKey (s : State) (c : Status) : (State.raise c s).maskKey = s.maskKey := rfl
@[simp] theorem State.raise_keyStage (s : State) (c : Status) : (State.raise c s).keyStage = s.keyStage := rfl
@[simp] theorem State.raise_rxHdr (s : State) (c : Status) : (State.raise c s).rxHdr = s.rxHdr := rfl
@[simp] theorem State.raise_rxDlen (s : State) (c : Status) : (State.raise c s).rxDlen = s.rxDlen := rfl
@[simp] theorem State.raise_rxLen (s : State) (c : Status) : (State.raise c s).rxLen = s.rxLen := rfl
@[simp] theorem State.raise_rxMkey (s : State) (c : Status) : (State.raise c s).rxMkey = s.rxMkey := rfl
@[simp] theorem State.raise_txLen (s : State) (c : Status) : (State.raise c s).txLen = s.txLen := rfl
@[simp] theorem State.raise_pin (s : State) (c : Status) : (State.raise c s).pin = s.pin := rfl
@[simp] theorem State.raise_txbuf (s : State) (c : Status) : (State.raise c s).txbuf = s.txbuf := rfl
@[simp] theorem State.raise_rxbuf (s : State) (c : Status) : (State.raise c s).rxbuf = s.rxbuf := rfl
@[simp] theorem State.raise_keyin (s : State) (c : Status) : (State.raise c s).keyin = s.keyin := rfl
@[simp] theorem State.raise_accept (s : State) (c : Status) : (State.raise c s).accept = s.accept := rfl
@[simp] theorem State.raise_rxs (s : State) (c : Status) : (State.raise c s).rxs = s.rxs := rfl
@[simp] theorem State.raise_txs (s : State) (c : Status) : (State.raise c s).txs = s.txs := rfl
@[simp] theorem State.raise_pending (s : State) (c : Status) : (State.raise c s).pending = s.pending := rfl
@[simp] theorem State.raise_hostReads (s : State) (c : Status) : (State.raise c s).hostReads = s.hostReads := rfl
@[simp] theorem State.raise_txAnswers (s : State) (c : Status) : (State.raise c s).txAnswers = s.txAnswers := rfl
@[simp] theorem State.raise_txDraws (s : State) (c : Status) : (State.raise c s).txDraws = s.txDraws := rfl

/-! `State.finish` -/

@[simp] theorem State.finish_cfg (s : State) : s.finish.cfg = s.cfg := rfl
@[simp] theorem State.finish_maskEn (s : State) : s.finish.maskEn = s.maskEn := rfl
@[simp] theorem State.finish_started (s : State) : s.finish.started = s.started := rfl
@[simp] theorem State.finish_cmdActive (s : State) : s.finish.cmdActive = false := rfl
@[simp] theorem State.finish_txBusy (s : State) : s.finish.txBusy = s.txBusy := rfl
@[simp] theorem State.finish_rxValid (s : State) : s.finish.rxValid = s.rxValid := rfl
@[simp] theorem State.finish_maskFresh (s : State) : s.finish.maskFresh = s.maskFresh := rfl
@[simp] theorem State.finish_err (s : State) : s.finish.err = .ok := rfl
@[simp] theorem State.finish_maskKey (s : State) : s.finish.maskKey = s.maskKey := rfl
@[simp] theorem State.finish_keyStage (s : State) : s.finish.keyStage = s.keyStage := rfl
@[simp] theorem State.finish_rxHdr (s : State) : s.finish.rxHdr = s.rxHdr := rfl
@[simp] theorem State.finish_rxDlen (s : State) : s.finish.rxDlen = s.rxDlen := rfl
@[simp] theorem State.finish_rxLen (s : State) : s.finish.rxLen = s.rxLen := rfl
@[simp] theorem State.finish_rxMkey (s : State) : s.finish.rxMkey = s.rxMkey := rfl
@[simp] theorem State.finish_txLen (s : State) : s.finish.txLen = s.txLen := rfl
@[simp] theorem State.finish_pin (s : State) : s.finish.pin = s.pin := rfl
@[simp] theorem State.finish_txbuf (s : State) : s.finish.txbuf = s.txbuf := rfl
@[simp] theorem State.finish_rxbuf (s : State) : s.finish.rxbuf = s.rxbuf := rfl
@[simp] theorem State.finish_keyin (s : State) : s.finish.keyin = s.keyin := rfl
@[simp] theorem State.finish_accept (s : State) : s.finish.accept = s.accept := rfl
@[simp] theorem State.finish_rxs (s : State) : s.finish.rxs = s.rxs := rfl
@[simp] theorem State.finish_txs (s : State) : s.finish.txs = s.txs := rfl
@[simp] theorem State.finish_pending (s : State) : s.finish.pending = s.pending := rfl
@[simp] theorem State.finish_hostReads (s : State) : s.finish.hostReads = s.hostReads := rfl
@[simp] theorem State.finish_txAnswers (s : State) : s.finish.txAnswers = s.txAnswers := rfl
@[simp] theorem State.finish_txDraws (s : State) : s.finish.txDraws = s.txDraws := rfl

/-! `State.peerAppend` -/

@[simp] theorem State.peerAppend_cfg (s : State) (bs : List Byte) : (State.peerAppend bs s).cfg = s.cfg := rfl
@[simp] theorem State.peerAppend_maskEn (s : State) (bs : List Byte) : (State.peerAppend bs s).maskEn = s.maskEn := rfl
@[simp] theorem State.peerAppend_started (s : State) (bs : List Byte) : (State.peerAppend bs s).started = s.started := rfl
@[simp] theorem State.peerAppend_cmdActive (s : State) (bs : List Byte) : (State.peerAppend bs s).cmdActive = s.cmdActive := rfl
@[simp] theorem State.peerAppend_txBusy (s : State) (bs : List Byte) : (State.peerAppend bs s).txBusy = s.txBusy := rfl
@[simp] theorem State.peerAppend_rxValid (s : State) (bs : List Byte) : (State.peerAppend bs s).rxValid = s.rxValid := rfl
@[simp] theorem State.peerAppend_maskFresh (s : State) (bs : List Byte) : (State.peerAppend bs s).maskFresh = s.maskFresh := rfl
@[simp] theorem State.peerAppend_err (s : State) (bs : List Byte) : (State.peerAppend bs s).err = s.err := rfl
@[simp] theorem State.peerAppend_maskKey (s : State) (bs : List Byte) : (State.peerAppend bs s).maskKey = s.maskKey := rfl
@[simp] theorem State.peerAppend_keyStage (s : State) (bs : List Byte) : (State.peerAppend bs s).keyStage = s.keyStage := rfl
@[simp] theorem State.peerAppend_rxHdr (s : State) (bs : List Byte) : (State.peerAppend bs s).rxHdr = s.rxHdr := rfl
@[simp] theorem State.peerAppend_rxDlen (s : State) (bs : List Byte) : (State.peerAppend bs s).rxDlen = s.rxDlen := rfl
@[simp] theorem State.peerAppend_rxLen (s : State) (bs : List Byte) : (State.peerAppend bs s).rxLen = s.rxLen := rfl
@[simp] theorem State.peerAppend_rxMkey (s : State) (bs : List Byte) : (State.peerAppend bs s).rxMkey = s.rxMkey := rfl
@[simp] theorem State.peerAppend_txLen (s : State) (bs : List Byte) : (State.peerAppend bs s).txLen = s.txLen := rfl
@[simp] theorem State.peerAppend_pin (s : State) (bs : List Byte) : (State.peerAppend bs s).pin = s.pin := rfl
@[simp] theorem State.peerAppend_txbuf (s : State) (bs : List Byte) : (State.peerAppend bs s).txbuf = s.txbuf := rfl
@[simp] theorem State.peerAppend_rxbuf (s : State) (bs : List Byte) : (State.peerAppend bs s).rxbuf = s.rxbuf := rfl
@[simp] theorem State.peerAppend_keyin (s : State) (bs : List Byte) : (State.peerAppend bs s).keyin = s.keyin := rfl
@[simp] theorem State.peerAppend_accept (s : State) (bs : List Byte) : (State.peerAppend bs s).accept = s.accept := rfl
@[simp] theorem State.peerAppend_rxs (s : State) (bs : List Byte) : (State.peerAppend bs s).rxs = s.rxs ++ bs := rfl
@[simp] theorem State.peerAppend_txs (s : State) (bs : List Byte) : (State.peerAppend bs s).txs = s.txs := rfl
@[simp] theorem State.peerAppend_pending (s : State) (bs : List Byte) : (State.peerAppend bs s).pending = s.pending := rfl
@[simp] theorem State.peerAppend_hostReads (s : State) (bs : List Byte) : (State.peerAppend bs s).hostReads = s.hostReads := rfl
@[simp] theorem State.peerAppend_txAnswers (s : State) (bs : List Byte) : (State.peerAppend bs s).txAnswers = s.txAnswers := rfl
@[simp] theorem State.peerAppend_txDraws (s : State) (bs : List Byte) : (State.peerAppend bs s).txDraws = s.txDraws := rfl

/-! `State.answer` -/

@[simp] theorem State.answer_cfg (s : State) (v : Word) : (State.answer v s).cfg = s.cfg := rfl
@[simp] theorem State.answer_maskEn (s : State) (v : Word) : (State.answer v s).maskEn = s.maskEn := rfl
@[simp] theorem State.answer_started (s : State) (v : Word) : (State.answer v s).started = s.started := rfl
@[simp] theorem State.answer_cmdActive (s : State) (v : Word) : (State.answer v s).cmdActive = s.cmdActive := rfl
@[simp] theorem State.answer_txBusy (s : State) (v : Word) : (State.answer v s).txBusy = s.txBusy := rfl
@[simp] theorem State.answer_rxValid (s : State) (v : Word) : (State.answer v s).rxValid = s.rxValid := rfl
@[simp] theorem State.answer_maskFresh (s : State) (v : Word) : (State.answer v s).maskFresh = s.maskFresh := rfl
@[simp] theorem State.answer_err (s : State) (v : Word) : (State.answer v s).err = s.err := rfl
@[simp] theorem State.answer_maskKey (s : State) (v : Word) : (State.answer v s).maskKey = s.maskKey := rfl
@[simp] theorem State.answer_keyStage (s : State) (v : Word) : (State.answer v s).keyStage = s.keyStage := rfl
@[simp] theorem State.answer_rxHdr (s : State) (v : Word) : (State.answer v s).rxHdr = s.rxHdr := rfl
@[simp] theorem State.answer_rxDlen (s : State) (v : Word) : (State.answer v s).rxDlen = s.rxDlen := rfl
@[simp] theorem State.answer_rxLen (s : State) (v : Word) : (State.answer v s).rxLen = s.rxLen := rfl
@[simp] theorem State.answer_rxMkey (s : State) (v : Word) : (State.answer v s).rxMkey = s.rxMkey := rfl
@[simp] theorem State.answer_txLen (s : State) (v : Word) : (State.answer v s).txLen = s.txLen := rfl
@[simp] theorem State.answer_pin (s : State) (v : Word) : (State.answer v s).pin = s.pin := rfl
@[simp] theorem State.answer_txbuf (s : State) (v : Word) : (State.answer v s).txbuf = s.txbuf := rfl
@[simp] theorem State.answer_rxbuf (s : State) (v : Word) : (State.answer v s).rxbuf = s.rxbuf := rfl
@[simp] theorem State.answer_keyin (s : State) (v : Word) : (State.answer v s).keyin = s.keyin := rfl
@[simp] theorem State.answer_accept (s : State) (v : Word) : (State.answer v s).accept = s.accept := rfl
@[simp] theorem State.answer_rxs (s : State) (v : Word) : (State.answer v s).rxs = s.rxs := rfl
@[simp] theorem State.answer_txs (s : State) (v : Word) : (State.answer v s).txs = s.txs := rfl
@[simp] theorem State.answer_pending (s : State) (v : Word) : (State.answer v s).pending = s.pending := rfl
@[simp] theorem State.answer_hostReads (s : State) (v : Word) : (State.answer v s).hostReads = s.hostReads ++ [v] := rfl
@[simp] theorem State.answer_txAnswers (s : State) (v : Word) : (State.answer v s).txAnswers = s.txAnswers := rfl
@[simp] theorem State.answer_txDraws (s : State) (v : Word) : (State.answer v s).txDraws = s.txDraws := rfl

/-! `State.writeCtrl` -/

@[simp] theorem State.writeCtrl_cfg (s : State) (v : Word) : (State.writeCtrl v s).cfg = s.cfg := rfl
@[simp] theorem State.writeCtrl_maskEn (s : State) (v : Word) : (State.writeCtrl v s).maskEn = v.getLsbD 0 := rfl
@[simp] theorem State.writeCtrl_started (s : State) (v : Word) : (State.writeCtrl v s).started = v.getLsbD 1 := rfl
@[simp] theorem State.writeCtrl_cmdActive (s : State) (v : Word) : (State.writeCtrl v s).cmdActive = s.cmdActive := rfl
@[simp] theorem State.writeCtrl_txBusy (s : State) (v : Word) : (State.writeCtrl v s).txBusy = s.txBusy := rfl
@[simp] theorem State.writeCtrl_rxValid (s : State) (v : Word) : (State.writeCtrl v s).rxValid = s.rxValid := rfl
@[simp] theorem State.writeCtrl_maskFresh (s : State) (v : Word) : (State.writeCtrl v s).maskFresh = s.maskFresh := rfl
@[simp] theorem State.writeCtrl_err (s : State) (v : Word) : (State.writeCtrl v s).err = s.err := rfl
@[simp] theorem State.writeCtrl_maskKey (s : State) (v : Word) : (State.writeCtrl v s).maskKey = s.maskKey := rfl
@[simp] theorem State.writeCtrl_keyStage (s : State) (v : Word) : (State.writeCtrl v s).keyStage = s.keyStage := rfl
@[simp] theorem State.writeCtrl_rxHdr (s : State) (v : Word) : (State.writeCtrl v s).rxHdr = s.rxHdr := rfl
@[simp] theorem State.writeCtrl_rxDlen (s : State) (v : Word) : (State.writeCtrl v s).rxDlen = s.rxDlen := rfl
@[simp] theorem State.writeCtrl_rxLen (s : State) (v : Word) : (State.writeCtrl v s).rxLen = s.rxLen := rfl
@[simp] theorem State.writeCtrl_rxMkey (s : State) (v : Word) : (State.writeCtrl v s).rxMkey = s.rxMkey := rfl
@[simp] theorem State.writeCtrl_txLen (s : State) (v : Word) : (State.writeCtrl v s).txLen = s.txLen := rfl
@[simp] theorem State.writeCtrl_pin (s : State) (v : Word) : (State.writeCtrl v s).pin = s.pin := rfl
@[simp] theorem State.writeCtrl_txbuf (s : State) (v : Word) : (State.writeCtrl v s).txbuf = s.txbuf := rfl
@[simp] theorem State.writeCtrl_rxbuf (s : State) (v : Word) : (State.writeCtrl v s).rxbuf = s.rxbuf := rfl
@[simp] theorem State.writeCtrl_keyin (s : State) (v : Word) : (State.writeCtrl v s).keyin = s.keyin := rfl
@[simp] theorem State.writeCtrl_accept (s : State) (v : Word) : (State.writeCtrl v s).accept = s.accept := rfl
@[simp] theorem State.writeCtrl_rxs (s : State) (v : Word) : (State.writeCtrl v s).rxs = s.rxs := rfl
@[simp] theorem State.writeCtrl_txs (s : State) (v : Word) : (State.writeCtrl v s).txs = s.txs := rfl
@[simp] theorem State.writeCtrl_pending (s : State) (v : Word) : (State.writeCtrl v s).pending = s.pending := rfl
@[simp] theorem State.writeCtrl_hostReads (s : State) (v : Word) : (State.writeCtrl v s).hostReads = s.hostReads := rfl
@[simp] theorem State.writeCtrl_txAnswers (s : State) (v : Word) : (State.writeCtrl v s).txAnswers = s.txAnswers := rfl
@[simp] theorem State.writeCtrl_txDraws (s : State) (v : Word) : (State.writeCtrl v s).txDraws = s.txDraws := rfl

/-! `State.retire` -/

@[simp] theorem State.retire_cfg (s : State) (b0 b1 : Byte) : (State.retire b0 b1 s).cfg = s.cfg := rfl
@[simp] theorem State.retire_maskEn (s : State) (b0 b1 : Byte) : (State.retire b0 b1 s).maskEn = s.maskEn := rfl
@[simp] theorem State.retire_started (s : State) (b0 b1 : Byte) : (State.retire b0 b1 s).started = s.started := rfl
@[simp] theorem State.retire_cmdActive (s : State) (b0 b1 : Byte) : (State.retire b0 b1 s).cmdActive = s.cmdActive := rfl
@[simp] theorem State.retire_txBusy (s : State) (b0 b1 : Byte) : (State.retire b0 b1 s).txBusy = s.txBusy := rfl
@[simp] theorem State.retire_rxValid (s : State) (b0 b1 : Byte) : (State.retire b0 b1 s).rxValid = false := rfl
@[simp] theorem State.retire_maskFresh (s : State) (b0 b1 : Byte) : (State.retire b0 b1 s).maskFresh = s.maskFresh := rfl
@[simp] theorem State.retire_err (s : State) (b0 b1 : Byte) : (State.retire b0 b1 s).err = s.err := rfl
@[simp] theorem State.retire_maskKey (s : State) (b0 b1 : Byte) : (State.retire b0 b1 s).maskKey = s.maskKey := rfl
@[simp] theorem State.retire_keyStage (s : State) (b0 b1 : Byte) : (State.retire b0 b1 s).keyStage = s.keyStage := rfl
@[simp] theorem State.retire_rxHdr (s : State) (b0 b1 : Byte) : (State.retire b0 b1 s).rxHdr = bigEndian16 b0 b1 := rfl
@[simp] theorem State.retire_rxDlen (s : State) (b0 b1 : Byte) : (State.retire b0 b1 s).rxDlen = 0 := rfl
@[simp] theorem State.retire_rxLen (s : State) (b0 b1 : Byte) : (State.retire b0 b1 s).rxLen = 0 := rfl
@[simp] theorem State.retire_rxMkey (s : State) (b0 b1 : Byte) : (State.retire b0 b1 s).rxMkey = 0 := rfl
@[simp] theorem State.retire_txLen (s : State) (b0 b1 : Byte) : (State.retire b0 b1 s).txLen = s.txLen := rfl
@[simp] theorem State.retire_pin (s : State) (b0 b1 : Byte) : (State.retire b0 b1 s).pin = s.pin := rfl
@[simp] theorem State.retire_txbuf (s : State) (b0 b1 : Byte) : (State.retire b0 b1 s).txbuf = s.txbuf := rfl
@[simp] theorem State.retire_rxbuf (s : State) (b0 b1 : Byte) : (State.retire b0 b1 s).rxbuf = s.rxbuf := rfl
@[simp] theorem State.retire_keyin (s : State) (b0 b1 : Byte) : (State.retire b0 b1 s).keyin = s.keyin := rfl
@[simp] theorem State.retire_accept (s : State) (b0 b1 : Byte) : (State.retire b0 b1 s).accept = s.accept := rfl
@[simp] theorem State.retire_rxs (s : State) (b0 b1 : Byte) : (State.retire b0 b1 s).rxs = s.rxs := rfl
@[simp] theorem State.retire_txs (s : State) (b0 b1 : Byte) : (State.retire b0 b1 s).txs = s.txs := rfl
@[simp] theorem State.retire_pending (s : State) (b0 b1 : Byte) : (State.retire b0 b1 s).pending = s.pending := rfl
@[simp] theorem State.retire_hostReads (s : State) (b0 b1 : Byte) : (State.retire b0 b1 s).hostReads = s.hostReads := rfl
@[simp] theorem State.retire_txAnswers (s : State) (b0 b1 : Byte) : (State.retire b0 b1 s).txAnswers = s.txAnswers := rfl
@[simp] theorem State.retire_txDraws (s : State) (b0 b1 : Byte) : (State.retire b0 b1 s).txDraws = s.txDraws := rfl

/-! `State.queueFrame` -/

@[simp] theorem State.queueFrame_cfg (s : State) (f : List Byte) : (State.queueFrame f s).cfg = s.cfg := rfl
@[simp] theorem State.queueFrame_maskEn (s : State) (f : List Byte) : (State.queueFrame f s).maskEn = s.maskEn := rfl
@[simp] theorem State.queueFrame_started (s : State) (f : List Byte) : (State.queueFrame f s).started = s.started := rfl
@[simp] theorem State.queueFrame_cmdActive (s : State) (f : List Byte) : (State.queueFrame f s).cmdActive = s.cmdActive := rfl
@[simp] theorem State.queueFrame_txBusy (s : State) (f : List Byte) : (State.queueFrame f s).txBusy = true := rfl
@[simp] theorem State.queueFrame_rxValid (s : State) (f : List Byte) : (State.queueFrame f s).rxValid = s.rxValid := rfl
@[simp] theorem State.queueFrame_maskFresh (s : State) (f : List Byte) : (State.queueFrame f s).maskFresh = (if s.maskEn then false else s.maskFresh) := rfl
@[simp] theorem State.queueFrame_err (s : State) (f : List Byte) : (State.queueFrame f s).err = s.err := rfl
@[simp] theorem State.queueFrame_maskKey (s : State) (f : List Byte) : (State.queueFrame f s).maskKey = s.maskKey := rfl
@[simp] theorem State.queueFrame_keyStage (s : State) (f : List Byte) : (State.queueFrame f s).keyStage = s.keyStage := rfl
@[simp] theorem State.queueFrame_rxHdr (s : State) (f : List Byte) : (State.queueFrame f s).rxHdr = s.rxHdr := rfl
@[simp] theorem State.queueFrame_rxDlen (s : State) (f : List Byte) : (State.queueFrame f s).rxDlen = s.rxDlen := rfl
@[simp] theorem State.queueFrame_rxLen (s : State) (f : List Byte) : (State.queueFrame f s).rxLen = s.rxLen := rfl
@[simp] theorem State.queueFrame_rxMkey (s : State) (f : List Byte) : (State.queueFrame f s).rxMkey = s.rxMkey := rfl
@[simp] theorem State.queueFrame_txLen (s : State) (f : List Byte) : (State.queueFrame f s).txLen = BitVec.ofNat 17 f.length := rfl
@[simp] theorem State.queueFrame_pin (s : State) (f : List Byte) : (State.queueFrame f s).pin = s.pin := rfl
@[simp] theorem State.queueFrame_txbuf (s : State) (f : List Byte) : (State.queueFrame f s).txbuf = Memory.writeBytes s.txbuf 0 f := rfl
@[simp] theorem State.queueFrame_rxbuf (s : State) (f : List Byte) : (State.queueFrame f s).rxbuf = s.rxbuf := rfl
@[simp] theorem State.queueFrame_keyin (s : State) (f : List Byte) : (State.queueFrame f s).keyin = s.keyin := rfl
@[simp] theorem State.queueFrame_accept (s : State) (f : List Byte) : (State.queueFrame f s).accept = s.accept := rfl
@[simp] theorem State.queueFrame_rxs (s : State) (f : List Byte) : (State.queueFrame f s).rxs = s.rxs := rfl
@[simp] theorem State.queueFrame_txs (s : State) (f : List Byte) : (State.queueFrame f s).txs = s.txs := rfl
@[simp] theorem State.queueFrame_pending (s : State) (f : List Byte) : (State.queueFrame f s).pending = s.pending := rfl
@[simp] theorem State.queueFrame_hostReads (s : State) (f : List Byte) : (State.queueFrame f s).hostReads = s.hostReads := rfl
@[simp] theorem State.queueFrame_txAnswers (s : State) (f : List Byte) : (State.queueFrame f s).txAnswers = s.txAnswers := rfl
@[simp] theorem State.queueFrame_txDraws (s : State) (f : List Byte) : (State.queueFrame f s).txDraws = s.txDraws := rfl

/-! `State.clear` -/

@[simp] theorem State.clear_cfg (s : State) : s.clear.cfg = s.cfg := rfl
@[simp] theorem State.clear_maskEn (s : State) : s.clear.maskEn = s.maskEn := rfl
@[simp] theorem State.clear_started (s : State) : s.clear.started = false := rfl
@[simp] theorem State.clear_cmdActive (s : State) : s.clear.cmdActive = s.cmdActive := rfl
@[simp] theorem State.clear_txBusy (s : State) : s.clear.txBusy = false := rfl
@[simp] theorem State.clear_rxValid (s : State) : s.clear.rxValid = false := rfl
@[simp] theorem State.clear_maskFresh (s : State) : s.clear.maskFresh = false := rfl
@[simp] theorem State.clear_err (s : State) : s.clear.err = s.err := rfl
@[simp] theorem State.clear_maskKey (s : State) : s.clear.maskKey = 0 := rfl
@[simp] theorem State.clear_keyStage (s : State) : s.clear.keyStage = s.keyStage := rfl
@[simp] theorem State.clear_rxHdr (s : State) : s.clear.rxHdr = 0 := rfl
@[simp] theorem State.clear_rxDlen (s : State) : s.clear.rxDlen = 0 := rfl
@[simp] theorem State.clear_rxLen (s : State) : s.clear.rxLen = 0 := rfl
@[simp] theorem State.clear_rxMkey (s : State) : s.clear.rxMkey = 0 := rfl
@[simp] theorem State.clear_txLen (s : State) : s.clear.txLen = 0 := rfl
@[simp] theorem State.clear_pin (s : State) : s.clear.pin = s.pin := rfl
@[simp] theorem State.clear_txbuf (s : State) : s.clear.txbuf = s.txbuf := rfl
@[simp] theorem State.clear_rxbuf (s : State) : s.clear.rxbuf = s.rxbuf := rfl
@[simp] theorem State.clear_keyin (s : State) : s.clear.keyin = s.keyin := rfl
@[simp] theorem State.clear_accept (s : State) : s.clear.accept = s.accept := rfl
@[simp] theorem State.clear_rxs (s : State) : s.clear.rxs = s.rxs := rfl
@[simp] theorem State.clear_txs (s : State) : s.clear.txs = s.txs := rfl
@[simp] theorem State.clear_pending (s : State) : s.clear.pending = s.pending := rfl
@[simp] theorem State.clear_hostReads (s : State) : s.clear.hostReads = s.hostReads := rfl
@[simp] theorem State.clear_txAnswers (s : State) : s.clear.txAnswers = s.txAnswers := rfl
@[simp] theorem State.clear_txDraws (s : State) : s.clear.txDraws = s.txDraws := rfl

/-! `State.powerOn` -/

@[simp] theorem State.powerOn_cfg (s : State) : s.powerOn.cfg = s.cfg := rfl
@[simp] theorem State.powerOn_maskEn (s : State) : s.powerOn.maskEn = false := rfl
@[simp] theorem State.powerOn_started (s : State) : s.powerOn.started = false := rfl
@[simp] theorem State.powerOn_cmdActive (s : State) : s.powerOn.cmdActive = false := rfl
@[simp] theorem State.powerOn_txBusy (s : State) : s.powerOn.txBusy = false := rfl
@[simp] theorem State.powerOn_rxValid (s : State) : s.powerOn.rxValid = false := rfl
@[simp] theorem State.powerOn_maskFresh (s : State) : s.powerOn.maskFresh = false := rfl
@[simp] theorem State.powerOn_err (s : State) : s.powerOn.err = .ok := rfl
@[simp] theorem State.powerOn_maskKey (s : State) : s.powerOn.maskKey = 0 := rfl
@[simp] theorem State.powerOn_keyStage (s : State) : s.powerOn.keyStage = 0 := rfl
@[simp] theorem State.powerOn_rxHdr (s : State) : s.powerOn.rxHdr = 0 := rfl
@[simp] theorem State.powerOn_rxDlen (s : State) : s.powerOn.rxDlen = 0 := rfl
@[simp] theorem State.powerOn_rxLen (s : State) : s.powerOn.rxLen = 0 := rfl
@[simp] theorem State.powerOn_rxMkey (s : State) : s.powerOn.rxMkey = 0 := rfl
@[simp] theorem State.powerOn_txLen (s : State) : s.powerOn.txLen = 0 := rfl
@[simp] theorem State.powerOn_pin (s : State) : s.powerOn.pin = [] := rfl
@[simp] theorem State.powerOn_txbuf (s : State) : s.powerOn.txbuf = [] := rfl
@[simp] theorem State.powerOn_rxbuf (s : State) : s.powerOn.rxbuf = [] := rfl
@[simp] theorem State.powerOn_keyin (s : State) : s.powerOn.keyin = [] := rfl
@[simp] theorem State.powerOn_accept (s : State) : s.powerOn.accept = [] := rfl
@[simp] theorem State.powerOn_rxs (s : State) : s.powerOn.rxs = s.rxs := rfl
@[simp] theorem State.powerOn_txs (s : State) : s.powerOn.txs = s.txs := rfl
@[simp] theorem State.powerOn_pending (s : State) : s.powerOn.pending = s.pending := rfl
@[simp] theorem State.powerOn_hostReads (s : State) : s.powerOn.hostReads = s.hostReads := rfl
@[simp] theorem State.powerOn_txAnswers (s : State) : s.powerOn.txAnswers = s.txAnswers := rfl
@[simp] theorem State.powerOn_txDraws (s : State) : s.powerOn.txDraws = s.txDraws := rfl

end Sys2Proof.Machine
end

