-- ==== Sys2Proof/Laws/HostBus.lean ====
section
/-! SUPPORT. What one input can do, said once. -/

namespace Sys2Proof.Machine

/-- A host read changes only the list of answers (R102). -/
theorem hostRead_next {width : Nat} {off : Addr} {s t : State} (h : hostRead width off s = .next t) :
    ∃ v, t = s.answer v := by
  unfold hostRead at h
  split at h
  · cases h; exact ⟨_, rfl⟩
  · cases h; exact ⟨_, rfl⟩
  · split at h
    · cases h; exact ⟨_, rfl⟩
    · cases h
  · cases h

/-- A byte target is in range (R81). -/
theorem target_byte {c : Config} {width : Nat} {off : Addr} {b : Buffer} {i : Nat}
    (h : target c width off = .byte b i) : i < bufferCapacity c b := by
  have window : ∀ (b' : Buffer) (a : Nat), bufferWindow c b' width a = .byte b i → i < bufferCapacity c b := by
    intro b' a h'
    unfold bufferWindow at h'
    split at h'
    · split at h'
      · cases h'; assumption
      · cases h'
    · cases h'
  have reserved : ∀ a, reservedRange width a ≠ .byte b i := by
    intro a h'
    unfold reservedRange at h'
    split at h' <;> cases h'
  have register : ∀ a, registerSpace width a ≠ .byte b i := by
    intro a h'
    unfold registerSpace at h'
    split at h'
    · split at h' <;> cases h'
    · cases h'
  unfold target at h
  dsimp only at h
  split at h
  · exact (register _ h).elim
  · split at h
    · exact window _ _ h
    · split at h
      · exact window _ _ h
      · split at h
        · exact (reserved _ h).elim
        · split at h
          · exact window _ _ h
          · split at h
            · exact (reserved _ h).elim
            · split at h
              · exact window _ _ h
              · split at h
                · exact window _ _ h
                · exact (reserved _ h).elim

/-- A register target is an aligned 4-byte access at the register's offset (R32, R82). -/
theorem target_register {c : Config} {width : Nat} {off : Addr} {r : Register}
    (h : target c width off = .register r) :
    width = 4 ∧ off.toNat < 0x100 ∧ off.toNat % 4 = 0 ∧ registerAt off.toNat = some r := by
  have window : ∀ (b : Buffer) (a : Nat), bufferWindow c b width a ≠ .register r := by
    intro b a h'
    unfold bufferWindow at h'
    split at h'
    · split at h' <;> cases h'
    · cases h'
  have reserved : ∀ a, reservedRange width a ≠ .register r := by
    intro a h'
    unfold reservedRange at h'
    split at h' <;> cases h'
  unfold target at h
  dsimp only at h
  split at h
  · rename_i hlt
    unfold registerSpace at h
    split at h
    · rename_i hw
      split at h
      · rename_i r' hr
        cases h
        exact ⟨hw.1, hlt, hw.2, hr⟩
      · cases h
    · cases h
  · exfalso
    repeat' split at h
    all_goals first
      | exact window _ _ h
      | exact reserved _ h

/-- From 0x028 on the register space holds no register (R32). -/
theorem registerAt_eq_none {a : Nat} (h : 0x028 ≤ a) : registerAt a = none := by
  unfold registerAt
  repeat' rw [if_neg (by omega)]

/-- A legal access of the register space past TX_LEN reaches nothing (R81, R82). -/
theorem registerSpace_reserved {width a : Nat} (hw : width = 4 ∧ a % 4 = 0) (h : 0x028 ≤ a) :
    registerSpace width a = .reserved := by
  rw [registerSpace, if_pos hw, registerAt_eq_none h]

/-- A byte access past a buffer's capacity reaches nothing (R81). -/
theorem bufferWindow_reserved {c : Config} {b : Buffer} {i : Nat} (h : bufferCapacity c b ≤ i) :
    bufferWindow c b 1 i = .reserved := by
  rw [bufferWindow, if_pos rfl, if_neg (by omega)]

/-- A legal access of a reserved range reaches nothing (R81, R82). -/
theorem reservedRange_reserved {width a : Nat} (h : width = 1 ∨ (width = 4 ∧ a % 4 = 0)) :
    reservedRange width a = .reserved := if_pos h

/-- A target that is reserved answers a read with 0 (R82). -/
theorem hostRead_reserved {width : Nat} {off : Addr} {s : State} (h : target s.cfg width off = .reserved) :
    hostRead width off s = .next (s.answer 0) := by
  rw [hostRead, h]

/-- A target that is reserved ignores a write (R82). -/
theorem hostWrite_reserved {run : Word → State → Result} {width : Nat} {off : Addr} {v : Word} {s : State}
    (h : target s.cfg width off = .reserved) : hostWrite run width off v s = .next s := by
  rw [hostWrite, h]
/-- CMD is at offset 0x004 and nowhere else. -/
theorem registerAt_cmd {a : Nat} : registerAt a = some .cmd ↔ a = 0x004 := by
  unfold registerAt
  repeat' split
  all_goals simp_all

/-- KEY_STAGE is at offset 0x010 and nowhere else. -/
theorem registerAt_keyStage {a : Nat} : registerAt a = some .keyStage ↔ a = 0x010 := by
  unfold registerAt
  repeat' split
  all_goals simp_all

/-- Everything a host write can do (R84, R87): nothing, a configuration register, one byte of KEYIN or PIN within its
capacity, or a command. -/
theorem hostWrite_next {run : Word → State → Result} {width : Nat} {off : Addr} {v : Word} {s t : State}
    (h : hostWrite run width off v s = .next t) :
    t = s ∨ t = s.writeCtrl v ∨ (width = 4 ∧ off = 0x010#19 ∧ t = { s with keyStage := v }) ∨
    (∃ i b, i < s.cfg.keyMax ∧ t = { s with keyin := Memory.write s.keyin i b }) ∨
    (∃ i b, i < s.cfg.txCap ∧ t = { s with pin := Memory.write s.pin i b }) ∨
    (width = 4 ∧ off = 0x004#19 ∧ run v s = .next t) := by
  unfold hostWrite at h
  split at h
  · rename_i r hr
    obtain ⟨hw, -, -, hreg⟩ := target_register hr
    cases r <;> simp only [writeRegister] at h
    case cmd =>
      exact .inr (.inr (.inr (.inr (.inr ⟨hw, BitVec.eq_of_toNat_eq (registerAt_cmd.1 hreg), h⟩))))
    case ctrl => cases h; exact .inr (.inl rfl)
    case keyStage =>
      cases h
      exact .inr (.inr (.inl ⟨hw, BitVec.eq_of_toNat_eq (registerAt_keyStage.1 hreg), rfl⟩))
    all_goals (cases h; exact .inl rfl)
  · cases h; exact .inl rfl
  · rename_i b i hb
    have hi := target_byte hb
    cases h
    cases b <;> simp only [State.writeWindow]
    case keyin => exact .inr (.inr (.inr (.inl ⟨i, _, hi, rfl⟩)))
    case pin => exact .inr (.inr (.inr (.inr (.inl ⟨i, _, hi, rfl⟩))))
    all_goals exact .inl trivial
  · cases h

/-- Everything one step can do: idle, an answer to a read, a host write, a peer append, power-on, or a command. -/
theorem step_cases {s t : State} (h : step s = .next t) :
    (s.pending = [] ∧ t = s) ∨
    ∃ e rest, s.pending = e :: rest ∧
      ((∃ w off v, e = .read w off ∧ t = State.answer v { s with pending := rest }) ∨
       (∃ w off v, e = .write w off v ∧ s.cmdActive = false ∧
          (t = { s with pending := rest } ∨ t = State.writeCtrl v { s with pending := rest } ∨
           (w = 4 ∧ off = 0x010#19 ∧ t = { s with pending := rest, keyStage := v }) ∨
           (∃ i b, i < s.cfg.keyMax ∧ t = { s with pending := rest, keyin := Memory.write s.keyin i b }) ∨
           (∃ i b, i < s.cfg.txCap ∧ t = { s with pending := rest, pin := Memory.write s.pin i b }) ∨
           (w = 4 ∧ off = 0x004#19 ∧
             exec (decodeCommand v) (State.beginCommand { s with pending := rest }) = .next t))) ∨
       (∃ bs, e = .peer bs ∧ t = State.peerAppend bs { s with pending := rest }) ∨
       (e = .powerOn ∧ t = State.powerOn { s with pending := rest })) := by
  unfold step at h
  split at h
  · rename_i hp
    cases h
    exact .inl ⟨hp, rfl⟩
  · rename_i e rest hp
    refine .inr ⟨e, rest, hp, ?_⟩
    cases e with
    | read w off =>
      simp only [hostEvent] at h
      split at h
      · cases h
      · obtain ⟨v, hv⟩ := hostRead_next h
        exact .inl ⟨w, off, v, rfl, hv⟩
    | write w off v =>
      simp only [hostEvent] at h
      split at h
      · cases h
      · rename_i hc
        refine .inr (.inl ⟨w, off, v, rfl, by simpa using hc, ?_⟩)
        exact hostWrite_next h
    | peer bs =>
      cases h
      exact .inr (.inr (.inl ⟨bs, rfl, rfl⟩))
    | powerOn =>
      cases h
      exact .inr (.inr (.inr ⟨rfl, rfl⟩))

end Sys2Proof.Machine
end

