-- ==== Sys2Proof/Laws/Mask.lean ====
section
/-! SUPPORT. The XOR engine byte by byte, and the key packing. -/

namespace Sys2Proof.Machine

@[simp] theorem maskFrom_length (k : Word) (i : Nat) (p : List Byte) : (maskFrom k i p).length = p.length := by
  induction p generalizing i with
  | nil => rfl
  | cons b bs ih => simp [maskFrom, ih]

/-- The byte at position `j` of the engine's output when it starts at payload index `i`. -/
theorem maskFrom_getElem? (k : Word) (i j : Nat) (p : List Byte) :
    (maskFrom k i p)[j]? = p[j]?.map (fun b => b ^^^ keyByte k ((i + j) % 4)) := by
  induction p generalizing i j with
  | nil => simp [maskFrom]
  | cons b bs ih =>
    cases j with
    | zero => simp [maskFrom]
    | succ j =>
      simp only [maskFrom, List.getElem?_cons_succ, ih]
      rw [show i + 1 + j = i + (j + 1) by omega]

/-- The bytes of a packed key, first byte in bits 31:24 (R97). -/
theorem keyByte_packKey (k0 k1 k2 k3 : Byte) :
    keyByte (packKey k0 k1 k2 k3) 0 = k0 ∧ keyByte (packKey k0 k1 k2 k3) 1 = k1 ∧
      keyByte (packKey k0 k1 k2 k3) 2 = k2 ∧ keyByte (packKey k0 k1 k2 k3) 3 = k3 := by
  refine ⟨?_, ?_, ?_, ?_⟩ <;>
  · apply BitVec.eq_of_getLsbD_eq
    intro i hi
    have h8 : i < 8 := hi
    simp [keyByte, packKey, bigEndian32, h8]
    try grind

/-- Packing the bytes of a key gives the key back. -/
theorem packKey_keyBytes (k : Word) :
    packKey (keyByte k 0) (keyByte k 1) (keyByte k 2) (keyByte k 3) = k := by
  apply BitVec.eq_of_getLsbD_eq
  intro i hi
  simp [keyByte, packKey, bigEndian32, hi]
  grind

end Sys2Proof.Machine
end

