-- ==== Sys2Proof/Laws/Receive.lean ====
section
/-! SUPPORT. What reading a frame can do, said once. -/

namespace Sys2Proof.Machine

/-- The state the payload loop leaves: `n` bytes wanted, read from the stream's front and unmasked from index `i` on. -/
def afterPayload (k : Word) (n i : Nat) (s : State) : State :=
  { s with
    rxs := s.rxs.drop n
    rxbuf := Memory.writeBytes s.rxbuf i (maskFrom k i (s.rxs.take n))
    rxLen := BitVec.ofNat 16 (i + (s.rxs.take n).length) }

/-- The payload loop in one piece: all the bytes wanted, or as many as the stream holds and TruncatedRead. -/
theorem readPayload_eq (k : Word) (whole : State → State) (n i : Nat) (s : State) :
    readPayload k whole n i s =
      if n ≤ s.rxs.length then whole (afterPayload k n i s) else (afterPayload k n i s).raise .truncatedRead := by
  induction n generalizing i s with
  | zero => simp [readPayload, afterPayload, maskFrom, Memory.writeBytes]
  | succ n ih =>
    simp only [readPayload]
    split
    · rename_i h
      simp [h, afterPayload, maskFrom, Memory.writeBytes]
    · rename_i c rest h
      rw [ih]
      simp only [afterPayload, h, List.length_cons, List.take_succ_cons, List.drop_succ_cons, maskFrom,
        Memory.writeBytes, Nat.add_le_add_iff_right]
      rw [show i + 1 + (rest.take n).length = i + ((rest.take n).length + 1) by omega]

/-- What a frame read from the stream leaves, once its header has been read: bytes taken from the stream, `bs` written into
RXBUF from index 0, and the receive registers and the result code. -/
def received (n : Nat) (bs : List Byte) (hdr dlen : BitVec 16) (mkey : Word) (valid : Bool) (c : Status)
    (s : State) : State :=
  { s with
    rxs := s.rxs.drop n
    rxbuf := Memory.writeBytes s.rxbuf 0 bs
    rxHdr := hdr
    rxDlen := dlen
    rxLen := BitVec.ofNat 16 bs.length
    rxMkey := mkey
    rxValid := valid
    err := c
    cmdActive := false }

/-- The payload phase in one piece (R207 to R212). -/
theorem payloadPhase_eq (k : Word) (len : Nat) (s : State) :
    payloadPhase k len s =
      let n := min len s.cfg.rxCap
      let t := afterPayload k n 0 s
      if s.rxs.length < n then t.raise .truncatedRead
      else if s.cfg.rxCap < len then t.raise .payloadTooLarge
      else ({ t with rxValid := true }).finish := by
  simp only [payloadPhase, readPayload_eq, deliver]
  by_cases h : s.rxs.length < min len s.cfg.rxCap
  · rw [if_neg (by omega), if_pos h]
  · rw [if_pos (by omega), if_neg h]
    rfl

/-- The key phase with a key to read (R205, R206). -/
theorem keyPhase_masked (len : Nat) (u : State) (k0 k1 k2 k3 : Byte) (rest : List Byte)
    (h : u.rxs = k0 :: k1 :: k2 :: k3 :: rest) (ha : u.cfg.maskAvailMin ≤ u.rxs.length) :
    keyPhase true len u = payloadPhase (packKey k0 k1 k2 k3) len { u with rxs := rest, rxMkey := packKey k0 k1 k2 k3 } := by
  simp only [keyPhase, if_true, h]
  rw [if_neg (by rw [← h]; omega)]

/-- The key phase without (R205). -/
theorem keyPhase_missing (len : Nat) (u : State) (ha : u.rxs.length < u.cfg.maskAvailMin) :
    keyPhase true len u = u.raise .missingMaskKey := by
  simp only [keyPhase, if_true, if_pos ha]

/-- The key phase of an unmasked frame (R206). -/
theorem keyPhase_plain (len : Nat) (u : State) : keyPhase false len u = payloadPhase 0 len u := rfl

/-- The length phase of a length of one byte (R204). -/
theorem lengthPhase_short (b1 : Byte) (u : State) (h7 : b1Len7 b1 ≠ 127) (h126 : b1Len7 b1 ≠ 126) :
    lengthPhase b1 u = keyPhase (b1Masked b1) (b1Len7 b1) { u with rxDlen := BitVec.ofNat 16 (b1Len7 b1) } := by
  simp only [lengthPhase, if_neg h7, if_neg h126]

/-- The length phase of an extended length (R204). -/
theorem lengthPhase_ext (b1 : Byte) (u : State) (h126 : b1Len7 b1 = 126) (e0 e1 : Byte) (rest : List Byte)
    (h : u.rxs = e0 :: e1 :: rest) :
    lengthPhase b1 u = keyPhase (b1Masked b1) (extendedLength e0 e1)
      { u with rxs := rest, rxDlen := BitVec.ofNat 16 (extendedLength e0 e1) } := by
  simp only [lengthPhase, h126, h]
  rfl

/-- Everything a frame's fetch and dispatch does: DECODE of the stream with its header byte in front. -/
theorem runFrame_eq (op : FrameOpcode) (f r1 r2 r3 : Bool) (s : State) :
    runFrame op f r1 r2 r3 s = .next (receiveHeader f r1 r2 r3 op s) := by
  cases op <;> rfl

/-- `exec` of a wire instruction (log 10). -/
theorem exec_frameInstr (op : FrameOpcode) (f r1 r2 r3 : Bool) (s : State) :
    exec (frameInstr op f r1 r2 r3) s = .next (receiveHeader f r1 r2 r3 op s) := by
  cases op <;> rfl

/-- DECODE always answers a next state: the frame at the front of the stream, read. -/
theorem execDecode_eq (s : State) : execDecode s = .next (receiveFrame s) := by
  simp only [execDecode]
  split
  · rfl
  · rename_i b0 rest h
    rw [runFrame_eq]
    simp only [receiveHeader, headerByte_fields, ← h]

/-- Everything DECODE can do: stopped by its gate with only ERR changed, or a header read and `received` what follows, of
which a valid payload is the declared one. -/
theorem receiveFrame_cases (s : State) :
    (∃ c, receiveFrame s = s.raise c ∧
        ((s.started = false ∧ c = .connectionNotStarted) ∨ (s.started = true ∧ s.rxs.length < 2 ∧ c = .idle))) ∨
    (s.started = true ∧ 2 ≤ s.rxs.length ∧ ∃ n bs hdr dlen mkey valid c,
        receiveFrame s = received n bs hdr dlen mkey valid c s ∧ 2 ≤ n ∧ bs.length ≤ s.cfg.rxCap ∧
        (valid = true → c = .ok ∧ dlen = BitVec.ofNat 16 bs.length)) := by
  rcases hst : s.started with _ | _
  · exact .inl ⟨.connectionNotStarted, by simp [receiveFrame, hst], .inl ⟨rfl, rfl⟩⟩
  · rcases hrxs : s.rxs with _ | ⟨b0, _ | ⟨b1, rest⟩⟩
    · exact .inl ⟨.idle, by simp [receiveFrame, hst, hrxs], .inr ⟨rfl, by simp, rfl⟩⟩
    · exact .inl ⟨.idle, by simp [receiveFrame, hst, hrxs], .inr ⟨rfl, by simp, rfl⟩⟩
    · right
      refine ⟨rfl, by simp, ?_⟩
      have hframe : receiveFrame s = lengthPhase b1 (State.retire b0 b1 { s with rxs := rest }) := by
        simp [receiveFrame, hst, hrxs]
      have payload : ∀ (k : Word) (len m : Nat) (mkey : Word) (u : State),
          u = { State.retire b0 b1 { s with rxs := rest } with
                rxs := s.rxs.drop m, rxMkey := mkey, rxDlen := BitVec.ofNat 16 len } → 2 ≤ m →
          ∃ n bs hdr dlen mkey valid c,
            payloadPhase k len u = received n bs hdr dlen mkey valid c s ∧ 2 ≤ n ∧ bs.length ≤ s.cfg.rxCap ∧
            (valid = true → c = .ok ∧ dlen = BitVec.ofNat 16 bs.length) := by
        intro k len m mkey u hu hm
        have hlen : (u.rxs.take (min len u.cfg.rxCap)).length ≤ s.cfg.rxCap := by
          subst hu
          simp only [List.length_take, State.retire_cfg]
          omega
        rw [payloadPhase_eq]
        refine ⟨m + min len s.cfg.rxCap, maskFrom k 0 (u.rxs.take (min len u.cfg.rxCap)), bigEndian16 b0 b1,
          BitVec.ofNat 16 len, mkey, ?_⟩
        by_cases h1 : u.rxs.length < min len u.cfg.rxCap
        · refine ⟨false, .truncatedRead, ?_, by omega, by simpa using hlen, by simp⟩
          rw [if_pos h1]
          subst hu
          simp [received, afterPayload, State.raise, State.retire, List.drop_drop]
        · by_cases h2 : u.cfg.rxCap < len
          · refine ⟨false, .payloadTooLarge, ?_, by omega, by simpa using hlen, by simp⟩
            rw [if_neg h1, if_pos h2]
            subst hu
            simp [received, afterPayload, State.raise, State.retire, List.drop_drop]
          · have htake : (u.rxs.take (min len u.cfg.rxCap)).length = len := by
              rw [List.length_take]
              omega
            refine ⟨true, .ok, ?_, by omega, by simpa using hlen, fun _ => ⟨rfl, by simp [htake]⟩⟩
            rw [if_neg h1, if_neg h2]
            subst hu
            simp [received, afterPayload, State.raise, State.finish, State.retire, List.drop_drop]
      have key : ∀ (masked : Bool) (len m : Nat) (u : State),
          u = { State.retire b0 b1 { s with rxs := rest } with
                rxs := s.rxs.drop m, rxDlen := BitVec.ofNat 16 len } → 2 ≤ m →
          ∃ n bs hdr dlen mkey valid c,
            keyPhase masked len u = received n bs hdr dlen mkey valid c s ∧ 2 ≤ n ∧ bs.length ≤ s.cfg.rxCap ∧
            (valid = true → c = .ok ∧ dlen = BitVec.ofNat 16 bs.length) := by
        intro masked len m u hu hm
        have missing : ∃ n bs hdr dlen mkey valid c,
            u.raise .missingMaskKey = received n bs hdr dlen mkey valid c s ∧ 2 ≤ n ∧ bs.length ≤ s.cfg.rxCap ∧
            (valid = true → c = .ok ∧ dlen = BitVec.ofNat 16 bs.length) :=
          ⟨m, [], bigEndian16 b0 b1, BitVec.ofNat 16 len, 0, false, .missingMaskKey,
            by subst hu; simp [received, State.raise, State.retire, Memory.writeBytes], hm, by simp, by simp⟩
        simp only [keyPhase]
        split
        · split
          · exact missing
          · split
            · rename_i k0 k1 k2 k3 rest' hk
              refine payload _ len (m + 4) (packKey k0 k1 k2 k3) _ ?_ (by omega)
              have hr : rest' = s.rxs.drop (m + 4) := by
                have h4 : u.rxs.drop 4 = rest' := by rw [hk]; rfl
                rw [← h4, hu, List.drop_drop]
              subst hu
              simp [hr]
            · exact missing
        · refine payload 0 len m 0 u ?_ hm
          rw [hu]
          rfl
      rw [hframe, lengthPhase]
      split
      · exact ⟨2, [], bigEndian16 b0 b1, 0, 0, false, .unsupportedLength,
          by simp [received, State.raise, State.retire, Memory.writeBytes, hrxs], le_refl _, by simp, by simp⟩
      · split
        · split
          · rename_i e0 e1 rest' he
            refine key _ _ 4 _ ?_ (by omega)
            have hr : rest = e0 :: e1 :: rest' := he
            simp [hrxs, hr]
          · exact ⟨2, [], bigEndian16 b0 b1, 0, 0, false, .truncatedRead,
              by simp [received, State.raise, State.retire, Memory.writeBytes, hrxs], le_refl _, by simp, by simp⟩
        · refine key _ _ 2 _ ?_ (le_refl _)
          simp [hrxs, State.retire]

end Sys2Proof.Machine
end

