-- ==== Sys2Proof/Laws/Transmit.lean ====
section
/-! SUPPORT. What ENCODE, FLUSH and DERIVE_KEY can do, said once each, and the sizes of what they build. -/

namespace Sys2Proof.Machine

/-- The number of length bytes after B0 (R127). -/
theorem lengthFields_length (m : Bool) (len : Nat) : (lengthFields m len).length = if len ≤ 125 then 1 else 3 := by
  unfold lengthFields
  split <;> rfl

/-- An outbound frame's size (R254). -/
theorem buildFrame_length (op : FrameOpcode) (m : Bool) (k : Word) (p : List Byte) :
    (buildFrame op m k p).length =
      2 + (if 126 ≤ p.length then 2 else 0) + (if m then 4 else 0) + p.length := by
  simp only [buildFrame, List.length_cons, List.length_append, lengthFields_length]
  cases m
  · simp only [Bool.false_eq_true, if_false]
    split <;> split <;> omega
  · simp only [if_true, List.length_append, maskXor, maskFrom_length, keyBytes, List.length_cons, List.length_nil]
    split <;> split <;> omega

/-- Everything ENCODE can do (R251, R252). -/
theorem execEncode_cases (op : FrameOpcode) (len : Nat) (s : State) :
    (s.txBusy = true ∧ execEncode op len s = .next (s.raise .sendBusy)) ∨
    (s.txBusy = false ∧ s.cfg.txCap < len ∧ execEncode op len s = .next (s.raise .payloadTooLarge)) ∨
    (s.txBusy = false ∧ len ≤ s.cfg.txCap ∧ ∃ i, Memory.readBytes s.pin 0 len = .error i ∧
      execEncode op len s = .fault (.unwritten .pin i)) ∨
    (s.txBusy = false ∧ len ≤ s.cfg.txCap ∧ ∃ p, p.length = len ∧ Memory.readBytes s.pin 0 len = .ok p ∧
      execEncode op len s = .next (s.queueFrame (buildFrame op s.maskEn s.maskKey p)).finish) := by
  cases hb : s.txBusy
  · by_cases hc : s.cfg.txCap < len
    · exact .inr (.inl ⟨rfl, hc, by simp [execEncode, hb, hc]⟩)
    · cases hr : Memory.readBytes s.pin 0 len with
      | error i => exact .inr (.inr (.inl ⟨rfl, by omega, i, rfl, by simp [execEncode, hb, hc, hr]⟩))
      | ok p =>
        exact .inr (.inr (.inr ⟨rfl, by omega, p, (Memory.readBytes_eq_ok.1 hr).1, rfl,
          by simp [execEncode, hb, hc, hr]⟩))
  · exact .inl ⟨rfl, by simp [execEncode, hb]⟩

/-- What a TxWrite and the end of FLUSH leave (R94, R260): the slot freed, the sent bytes in TXS, and what is left of the
answers. -/
def flushed (sent : List Byte) (answers : List TxAnswer) (draws : Nat) (c : Status) (s : State) : State :=
  { s with
    txs := s.txs ++ sent, txAnswers := answers, txDraws := draws, txBusy := false, err := c, cmdActive := false }

/-- Everything offering a frame can do (R94, R260): all of it sent and OK, or a proper prefix and TransportError. -/
theorem sendFrame_cases (f : List Byte) (hf : 0 < f.length) (s : State) :
    ∃ answers draws,
      s.sendFrame f = flushed f answers draws .ok s ∨
      ∃ j < f.length, s.sendFrame f = flushed (f.take j) answers draws .transportError s := by
  have err : ∀ j, ∃ i < f.length, sentBytes (.err j) f = f.take i :=
    fun j => ⟨min j (f.length - 1), by omega, rfl⟩
  cases ha : s.txAnswers with
  | cons a rest =>
    cases a with
    | ok => exact ⟨rest, s.txDraws, .inl (by simp [State.sendFrame, State.txWrite, State.drawTxAnswer, ha, sentBytes,
        State.finish, State.raise, flushed])⟩
    | err j =>
      obtain ⟨i, hi, hs⟩ := err j
      exact ⟨rest, s.txDraws, .inr ⟨i, hi, by simp [State.sendFrame, State.txWrite, State.drawTxAnswer, ha, hs,
        State.raise, flushed]⟩⟩
  | nil =>
    cases hd : Config.freeTxAnswer s.txDraws with
    | ok => exact ⟨[], s.txDraws + 1, .inl (by simp [State.sendFrame, State.txWrite, State.drawTxAnswer, ha, hd,
        sentBytes, State.finish, State.raise, flushed])⟩
    | err j =>
      obtain ⟨i, hi, hs⟩ := err j
      exact ⟨[], s.txDraws + 1, .inr ⟨i, hi, by simp [State.sendFrame, State.txWrite, State.drawTxAnswer, ha, hd, hs,
        State.raise, flushed]⟩⟩

/-- Whatever the transport answers, offering a frame changes only TXS, the answers, TX_BUSY and the result code. -/
theorem sendFrame_flushed (f : List Byte) (s : State) :
    ∃ sent answers draws c, s.sendFrame f = flushed sent answers draws c s := by
  rcases f with _ | ⟨b, f⟩
  · cases ha : s.txAnswers with
    | cons a rest =>
      cases a with
      | ok => exact ⟨[], rest, s.txDraws, .ok, by simp [State.sendFrame, State.txWrite, State.drawTxAnswer, ha,
          sentBytes, State.finish, State.raise, flushed]⟩
      | err j => exact ⟨[], rest, s.txDraws, .transportError, by simp [State.sendFrame, State.txWrite,
          State.drawTxAnswer, ha, sentBytes, State.raise, flushed]⟩
    | nil =>
      cases hd : Config.freeTxAnswer s.txDraws with
      | ok => exact ⟨[], [], s.txDraws + 1, .ok, by simp [State.sendFrame, State.txWrite, State.drawTxAnswer, ha, hd,
          sentBytes, State.finish, State.raise, flushed]⟩
      | err j => exact ⟨[], [], s.txDraws + 1, .transportError, by simp [State.sendFrame, State.txWrite,
          State.drawTxAnswer, ha, hd, sentBytes, State.raise, flushed]⟩
  · obtain ⟨answers, draws, h | ⟨j, -, h⟩⟩ := sendFrame_cases (b :: f) (by simp) s
    · exact ⟨_, _, _, _, h⟩
    · exact ⟨_, _, _, _, h⟩

/-- Everything FLUSH can do (R260). -/
theorem execFlush_cases (s : State) :
    (s.started = false ∧ execFlush s = .next (s.raise .connectionNotStarted)) ∨
    (s.started = true ∧ s.txBusy = false ∧ execFlush s = .next (s.raise .idle)) ∨
    (s.started = true ∧ s.txBusy = true ∧ ∃ i, Memory.readBytes s.txbuf 0 s.txLen.toNat = .error i ∧
      execFlush s = .fault (.unwritten .txbuf i)) ∨
    (s.started = true ∧ s.txBusy = true ∧ ∃ f, f.length = s.txLen.toNat ∧
      Memory.readBytes s.txbuf 0 s.txLen.toNat = .ok f ∧ execFlush s = .next (s.sendFrame f)) := by
  cases hs : s.started
  · exact .inl ⟨rfl, by simp [execFlush, hs]⟩
  · cases hb : s.txBusy
    · exact .inr (.inl ⟨rfl, rfl, by simp [execFlush, hs, hb]⟩)
    · cases hr : Memory.readBytes s.txbuf 0 s.txLen.toNat with
      | error i => exact .inr (.inr (.inl ⟨rfl, rfl, i, rfl, by simp [execFlush, hs, hb, hr]⟩))
      | ok f =>
        exact .inr (.inr (.inr ⟨rfl, rfl, f, (Memory.readBytes_eq_ok.1 hr).1, rfl, by simp [execFlush, hs, hb, hr]⟩))

/-- The digest has 20 bytes (R308). -/
theorem sha1_length (m : List Byte) : (sha1 m).length = 20 := by
  simp [sha1, wordBytes]

/-- The accept key has 28 characters (R290, R310). -/
theorem acceptKey_length (key : List Byte) : (acceptKey key).length = 28 := by
  simp [acceptKey, sha1, wordBytes, base64, base64Group, base64Tail]

/-- Everything DERIVE_KEY can do (R300). -/
theorem execDeriveKey_cases (n : Nat) (s : State) :
    (s.cfg.keyMax < n ∧ execDeriveKey n s = .next (s.raise .keyTooLong)) ∨
    (n ≤ s.cfg.keyMax ∧ ∃ i, Memory.readBytes s.keyin 0 n = .error i ∧
      execDeriveKey n s = .fault (.unwritten .keyin i)) ∨
    (n ≤ s.cfg.keyMax ∧ ∃ key, key.length = n ∧ Memory.readBytes s.keyin 0 n = .ok key ∧
      execDeriveKey n s =
        .next ({ s with accept := Memory.writeBytes s.accept 0 (acceptKey key) } : State).finish) := by
  by_cases hc : s.cfg.keyMax < n
  · exact .inl ⟨hc, by simp [execDeriveKey, hc]⟩
  · cases hr : Memory.readBytes s.keyin 0 n with
    | error i => exact .inr (.inl ⟨by omega, i, rfl, by simp [execDeriveKey, hc, hr]⟩)
    | ok key =>
      exact .inr (.inr ⟨by omega, key, (Memory.readBytes_eq_ok.1 hr).1, rfl, by simp [execDeriveKey, hc, hr]⟩)

end Sys2Proof.Machine
end

