-- ==== Sys2Proof/Laws/Exec.lean ====
section
/-! SUPPORT. Everything one command can do, said once. -/

namespace Sys2Proof.Machine

/-- The instruction is a command word's. -/
def isCommand (i : Instr) : Bool :=
  match encode i with
  | .command _ => true
  | .wire _ => false

theorem isCommand_frameInstr (op : FrameOpcode) (f r1 r2 r3 : Bool) :
    isCommand (frameInstr op f r1 r2 r3) = false := by
  cases op <;> rfl

theorem isCommand_decodeCommand (w : Word) : isCommand (decodeCommand w) = true := by
  unfold decodeCommand
  repeat refine iteInduction (motive := fun i => isCommand i = true) (fun _ => rfl) (fun _ => ?_)
  rfl

/-- The decoder reads no wire instruction from a command word (R131). -/
theorem decodeCommand_ne_frame (w : Word) (op : FrameOpcode) (f r1 r2 r3 : Bool) :
    decodeCommand w ≠ frameInstr op f r1 r2 r3 := by
  intro h
  have hc := isCommand_decodeCommand w
  rw [h, isCommand_frameInstr] at hc
  cases hc

/-- DECODE always answers a next state. -/
theorem exec_decode (s : State) : exec .decode s = .next (receiveFrame s) := execDecode_eq s

/-- The write of CMD, as the bus sees it. -/
theorem hostWrite_cmd (run : Word → State → Result) (v : Word) (s : State) :
    hostWrite run 4 0x004#19 v s = run v s := rfl

/-- Every wire instruction is its opcode's. -/
theorem instr_cases (i : Instr) :
    (∃ op f r1 r2 r3, i = frameInstr op f r1 r2 r3) ∨
    i ∈ [Instr.reservedCmd0, .reservedCmd8, .reservedCmd9, .reservedCmdA, .reservedCmdB, .reservedCmdC, .reservedCmdD,
      .reservedCmdE, .reservedCmdF] ∨
    i = .decode ∨ i = .drain ∨ (∃ op len, i = .encode op len) ∨ i = .flush ∨ i = .setMaskKey ∨
    (∃ n, i = .deriveKey n) ∨ i = .clear := by
  cases i
  case frameContinuation f r1 r2 r3 => exact .inl ⟨.continuation, f, r1, r2, r3, rfl⟩
  case frameText f r1 r2 r3 => exact .inl ⟨.text, f, r1, r2, r3, rfl⟩
  case frameBinary f r1 r2 r3 => exact .inl ⟨.binary, f, r1, r2, r3, rfl⟩
  case frameReserved3 f r1 r2 r3 => exact .inl ⟨.reserved3, f, r1, r2, r3, rfl⟩
  case frameReserved4 f r1 r2 r3 => exact .inl ⟨.reserved4, f, r1, r2, r3, rfl⟩
  case frameReserved5 f r1 r2 r3 => exact .inl ⟨.reserved5, f, r1, r2, r3, rfl⟩
  case frameReserved6 f r1 r2 r3 => exact .inl ⟨.reserved6, f, r1, r2, r3, rfl⟩
  case frameReserved7 f r1 r2 r3 => exact .inl ⟨.reserved7, f, r1, r2, r3, rfl⟩
  case frameClose f r1 r2 r3 => exact .inl ⟨.close, f, r1, r2, r3, rfl⟩
  case framePing f r1 r2 r3 => exact .inl ⟨.ping, f, r1, r2, r3, rfl⟩
  case framePong f r1 r2 r3 => exact .inl ⟨.pong, f, r1, r2, r3, rfl⟩
  case frameReservedB f r1 r2 r3 => exact .inl ⟨.reservedB, f, r1, r2, r3, rfl⟩
  case frameReservedC f r1 r2 r3 => exact .inl ⟨.reservedC, f, r1, r2, r3, rfl⟩
  case frameReservedD f r1 r2 r3 => exact .inl ⟨.reservedD, f, r1, r2, r3, rfl⟩
  case frameReservedE f r1 r2 r3 => exact .inl ⟨.reservedE, f, r1, r2, r3, rfl⟩
  case frameReservedF f r1 r2 r3 => exact .inl ⟨.reservedF, f, r1, r2, r3, rfl⟩
  all_goals simp

/-- Everything `exec` can do when it answers a next state. -/
theorem exec_next {i : Instr} {s t : State} (h : exec i s = .next t) :
    (∃ op f r1 r2 r3, i = frameInstr op f r1 r2 r3 ∧ t = receiveHeader f r1 r2 r3 op s) ∨
    (i = .decode ∧ t = receiveFrame s) ∨
    (∃ c, c ≠ .ok ∧ t = s.raise c) ∨
    (i = .drain ∧ t = ({ s with rxValid := false, rxLen := 0 } : State).finish) ∨
    (∃ op p, i = .encode op p.length ∧ s.txBusy = false ∧ p.length ≤ s.cfg.txCap ∧
      Memory.readBytes s.pin 0 p.length = .ok p ∧
      t = (s.queueFrame (buildFrame op s.maskEn s.maskKey p)).finish) ∨
    (∃ f, i = .flush ∧ s.started = true ∧ s.txBusy = true ∧ f.length = s.txLen.toNat ∧
      Memory.readBytes s.txbuf 0 s.txLen.toNat = .ok f ∧ t = s.sendFrame f) ∨
    (i = .setMaskKey ∧ t = ({ s with maskKey := s.keyStage, maskFresh := true } : State).finish) ∨
    (∃ key, i = .deriveKey key.length ∧ key.length ≤ s.cfg.keyMax ∧ Memory.readBytes s.keyin 0 key.length = .ok key ∧
      t = ({ s with accept := Memory.writeBytes s.accept 0 (acceptKey key) } : State).finish) ∨
    (i = .clear ∧ t = s.clear.finish) := by
  rcases instr_cases i with ⟨op, f, r1, r2, r3, rfl⟩ | hi | rfl | rfl | ⟨op, len, rfl⟩ | rfl | rfl | ⟨n, rfl⟩ | rfl
  · rw [exec_frameInstr] at h
    cases h
    exact .inl ⟨op, f, r1, r2, r3, rfl, rfl⟩
  · have hb : exec i s = .next (s.raise .badCommand) := by
      simp only [List.mem_cons, List.not_mem_nil, or_false] at hi
      rcases hi with rfl | rfl | rfl | rfl | rfl | rfl | rfl | rfl | rfl <;> rfl
    rw [hb] at h
    cases h
    exact .inr (.inr (.inl ⟨.badCommand, by decide, rfl⟩))
  · have hd : exec .decode s = .next (receiveFrame s) := execDecode_eq s
    rw [hd] at h
    cases h
    exact .inr (.inl ⟨rfl, rfl⟩)
  · cases h
    exact .inr (.inr (.inr (.inl ⟨rfl, rfl⟩)))
  · change execEncode op len s = _ at h
    rcases execEncode_cases op len s with ⟨-, he⟩ | ⟨-, -, he⟩ | ⟨-, -, j, -, he⟩ | ⟨hb, hc, p, rfl, hp, he⟩ <;>
      rw [he] at h <;> cases h
    · exact .inr (.inr (.inl ⟨.sendBusy, by decide, rfl⟩))
    · exact .inr (.inr (.inl ⟨.payloadTooLarge, by decide, rfl⟩))
    · exact .inr (.inr (.inr (.inr (.inl ⟨op, p, rfl, hb, hc, hp, rfl⟩))))
  · change execFlush s = _ at h
    rcases execFlush_cases s with ⟨-, he⟩ | ⟨-, -, he⟩ | ⟨-, -, j, -, he⟩ | ⟨hs, hb, f, hl, hf, he⟩ <;>
      rw [he] at h <;> cases h
    · exact .inr (.inr (.inl ⟨.connectionNotStarted, by decide, rfl⟩))
    · exact .inr (.inr (.inl ⟨.idle, by decide, rfl⟩))
    · exact .inr (.inr (.inr (.inr (.inr (.inl ⟨f, rfl, hs, hb, hl, hf, rfl⟩)))))
  · cases h
    exact .inr (.inr (.inr (.inr (.inr (.inr (.inl ⟨rfl, rfl⟩))))))
  · change execDeriveKey n s = _ at h
    rcases execDeriveKey_cases n s with ⟨-, he⟩ | ⟨-, j, -, he⟩ | ⟨hc, key, rfl, hk, he⟩ <;>
      rw [he] at h <;> cases h
    · exact .inr (.inr (.inl ⟨.keyTooLong, by decide, rfl⟩))
    · exact .inr (.inr (.inr (.inr (.inr (.inr (.inr (.inl ⟨key, rfl, hc, hk, rfl⟩)))))))
  · cases h
    exact .inr (.inr (.inr (.inr (.inr (.inr (.inr (.inr ⟨rfl, rfl⟩)))))))

/-- Reading a frame ends the command. -/
theorem receiveFrame_cmdActive (s : State) : (receiveFrame s).cmdActive = false := by
  rcases receiveFrame_cases s with ⟨c, h, -⟩ | ⟨-, -, n, bs, hdr, dlen, mkey, valid, c, h, -⟩ <;> rw [h] <;> rfl

/-- Offering a frame ends the command. -/
theorem sendFrame_cmdActive (f : List Byte) (s : State) : (s.sendFrame f).cmdActive = false := by
  obtain ⟨sent, answers, draws, c, h⟩ := sendFrame_flushed f s
  rw [h]
  rfl

end Sys2Proof.Machine
end

