-- ==== Sys2Proof/Laws/PerInstr.lean ====
section
/-! SUPPORT. One lemma per instruction: the code's low four bits are the value the opcode table fixes for its row. -/

namespace Sys2Proof.Laws.TableRow

/-- Bits 3:0 of a code. -/
def lowBits : Code → BitVec 4
  | .command w => cmdOp w
  | .wire b => b.extractLsb' 0 4

/-- The value spec/opcode_table.json fixes in bits 3:0 for the instruction's row. -/
def fixedBits : Instr → BitVec 4
  | .reservedCmd0 | .frameContinuation _ _ _ _ => 0x0#4
  | .decode | .frameText _ _ _ _ => 0x1#4
  | .drain | .frameBinary _ _ _ _ => 0x2#4
  | .encode _ _ | .frameReserved3 _ _ _ _ => 0x3#4
  | .flush | .frameReserved4 _ _ _ _ => 0x4#4
  | .setMaskKey | .frameReserved5 _ _ _ _ => 0x5#4
  | .deriveKey _ | .frameReserved6 _ _ _ _ => 0x6#4
  | .clear | .frameReserved7 _ _ _ _ => 0x7#4
  | .reservedCmd8 | .frameClose _ _ _ _ => 0x8#4
  | .reservedCmd9 | .framePing _ _ _ _ => 0x9#4
  | .reservedCmdA | .framePong _ _ _ _ => 0xA#4
  | .reservedCmdB | .frameReservedB _ _ _ _ => 0xB#4
  | .reservedCmdC | .frameReservedC _ _ _ _ => 0xC#4
  | .reservedCmdD | .frameReservedD _ _ _ _ => 0xD#4
  | .reservedCmdE | .frameReservedE _ _ _ _ => 0xE#4
  | .reservedCmdF | .frameReservedF _ _ _ _ => 0xF#4

/-- The code of the instruction has the bits its row fixes. -/
def Statement (i : Instr) : Prop := lowBits (encode i) = fixedBits i

theorem lowBits_headerByte (f r1 r2 r3 : Bool) (op : FrameOpcode) :
    lowBits (.wire (headerByte f r1 r2 r3 op)) = op.bits := by
  cases op <;> revert f r1 r2 r3 <;> decide

theorem encode (op : FrameOpcode) (len : Nat) : Statement (.encode op len) := cmdOp_commandWord _ _ _
theorem deriveKey (n : Nat) : Statement (.deriveKey n) := cmdOp_commandWord _ _ _
theorem reservedCmd0 : Statement .reservedCmd0 := cmdOp_commandWord _ _ _
theorem decode : Statement .decode := cmdOp_commandWord _ _ _
theorem drain : Statement .drain := cmdOp_commandWord _ _ _
theorem flush : Statement .flush := cmdOp_commandWord _ _ _
theorem setMaskKey : Statement .setMaskKey := cmdOp_commandWord _ _ _
theorem clear : Statement .clear := cmdOp_commandWord _ _ _
theorem reservedCmd8 : Statement .reservedCmd8 := cmdOp_commandWord _ _ _
theorem reservedCmd9 : Statement .reservedCmd9 := cmdOp_commandWord _ _ _
theorem reservedCmdA : Statement .reservedCmdA := cmdOp_commandWord _ _ _
theorem reservedCmdB : Statement .reservedCmdB := cmdOp_commandWord _ _ _
theorem reservedCmdC : Statement .reservedCmdC := cmdOp_commandWord _ _ _
theorem reservedCmdD : Statement .reservedCmdD := cmdOp_commandWord _ _ _
theorem reservedCmdE : Statement .reservedCmdE := cmdOp_commandWord _ _ _
theorem reservedCmdF : Statement .reservedCmdF := cmdOp_commandWord _ _ _
theorem frameContinuation (f r1 r2 r3 : Bool) : Statement (.frameContinuation f r1 r2 r3) := lowBits_headerByte f r1 r2 r3 _
theorem frameText (f r1 r2 r3 : Bool) : Statement (.frameText f r1 r2 r3) := lowBits_headerByte f r1 r2 r3 _
theorem frameBinary (f r1 r2 r3 : Bool) : Statement (.frameBinary f r1 r2 r3) := lowBits_headerByte f r1 r2 r3 _
theorem frameReserved3 (f r1 r2 r3 : Bool) : Statement (.frameReserved3 f r1 r2 r3) := lowBits_headerByte f r1 r2 r3 _
theorem frameReserved4 (f r1 r2 r3 : Bool) : Statement (.frameReserved4 f r1 r2 r3) := lowBits_headerByte f r1 r2 r3 _
theorem frameReserved5 (f r1 r2 r3 : Bool) : Statement (.frameReserved5 f r1 r2 r3) := lowBits_headerByte f r1 r2 r3 _
theorem frameReserved6 (f r1 r2 r3 : Bool) : Statement (.frameReserved6 f r1 r2 r3) := lowBits_headerByte f r1 r2 r3 _
theorem frameReserved7 (f r1 r2 r3 : Bool) : Statement (.frameReserved7 f r1 r2 r3) := lowBits_headerByte f r1 r2 r3 _
theorem frameClose (f r1 r2 r3 : Bool) : Statement (.frameClose f r1 r2 r3) := lowBits_headerByte f r1 r2 r3 _
theorem framePing (f r1 r2 r3 : Bool) : Statement (.framePing f r1 r2 r3) := lowBits_headerByte f r1 r2 r3 _
theorem framePong (f r1 r2 r3 : Bool) : Statement (.framePong f r1 r2 r3) := lowBits_headerByte f r1 r2 r3 _
theorem frameReservedB (f r1 r2 r3 : Bool) : Statement (.frameReservedB f r1 r2 r3) := lowBits_headerByte f r1 r2 r3 _
theorem frameReservedC (f r1 r2 r3 : Bool) : Statement (.frameReservedC f r1 r2 r3) := lowBits_headerByte f r1 r2 r3 _
theorem frameReservedD (f r1 r2 r3 : Bool) : Statement (.frameReservedD f r1 r2 r3) := lowBits_headerByte f r1 r2 r3 _
theorem frameReservedE (f r1 r2 r3 : Bool) : Statement (.frameReservedE f r1 r2 r3) := lowBits_headerByte f r1 r2 r3 _
theorem frameReservedF (f r1 r2 r3 : Bool) : Statement (.frameReservedF f r1 r2 r3) := lowBits_headerByte f r1 r2 r3 _

end Sys2Proof.Laws.TableRow
end

