-- ==== Sys2Proof/Machine/Hooks.lean ====
section
/-! DEFINITION. The source's hook points as conditions the host reads after a command (60_exceptions R367). Calling a handler
is the host's act; the block has no interrupt (R366). -/

namespace Sys2Proof.Machine

/-- The hooks that map onto the block's status (R367). -/
inductive Hook where
  | receive | pingReceived | pongReceived | closeReceived | sendComplete | maskRefreshDue
  deriving DecidableEq, Repr

/-- DECODE has just ended with OK (R367). -/
def decodedOk (i : Instr) (s : State) : Bool := decide (i = .decode ∧ s.err = .ok)

/-- Whether a hook's condition holds in the state `s` that command `i` has just left (R367). -/
def hookFires (i : Instr) (s : State) : Hook → Bool
  | .receive => decodedOk i s
  | .pingReceived => decodedOk i s && decide (s.rxOpcode = .ping)
  | .pongReceived => decodedOk i s && decide (s.rxOpcode = .pong)
  | .closeReceived => decodedOk i s && decide (s.rxOpcode = .close)
  | .sendComplete => decide (i = .flush ∧ s.err = .ok)
  | .maskRefreshDue => s.refreshDue

end Sys2Proof.Machine
end

