-- ==== Sys2Proof/Machine/Pseudo.lean ====
section
/-! DEFINITION. Host programs: the statements of 30_encoding R134, the pseudo-commands of R135 and the boot order of
70_reset_and_hazards R403, each as the inputs the host gives. -/

namespace Sys2Proof.Machine

/-- The offset of a register (R32, R134). -/
def registerOffset : Register → Addr
  | .ctrl => 0x000#19
  | .cmd => 0x004#19
  | .status => 0x008#19
  | .maskKey => 0x00C#19
  | .keyStage => 0x010#19
  | .rxHdr => 0x014#19
  | .rxDlen => 0x018#19
  | .rxLen => 0x01C#19
  | .rxMkey => 0x020#19
  | .txLen => 0x024#19

/-- The offset of a buffer's window (20_memory R81). -/
def windowBase : Buffer → Addr
  | .keyin => 0x00100#19
  | .accept => 0x00180#19
  | .pin => 0x20000#19
  | .txbuf => 0x40000#19
  | .rxbuf => 0x60000#19

/-- `WR32 REG, v` (R134). -/
def wr32 (r : Register) (v : Word) : Event := .write 4 (registerOffset r) v

/-- `RD32 REG` (R134). -/
def rd32 (r : Register) : Event := .read 4 (registerOffset r)

/-- `WR8 BUF+i, b` (R134). -/
def wr8 (b : Buffer) (i : Nat) (v : Byte) : Event := .write 1 (windowBase b + BitVec.ofNat 19 i) (v.setWidth 32)

/-- `RD8 BUF+i` (R134). -/
def rd8 (b : Buffer) (i : Nat) : Event := .read 1 (windowBase b + BitVec.ofNat 19 i)

/-- `RD8 BUF+i .. RD8 BUF+(i+n-1)` (R134). -/
def rd8Range (b : Buffer) (i n : Nat) : List Event := (List.range n).map (fun j => rd8 b (i + j))

/-- `WR8 BUF+i, b0 .. ` (R134). -/
def wr8Range (b : Buffer) : Nat → List Byte → List Event
  | _, [] => []
  | i, v :: vs => wr8 b i v :: wr8Range b (i + 1) vs

/-- A command statement (R134): the write of CMD. A wire byte is no command word and is written as none. -/
def issue (i : Instr) : List Event :=
  match encode i with
  | .command w => [wr32 .cmd w]
  | .wire _ => []

/-- The word of one bit. -/
def bitWord (b : Bool) : Word := (BitVec.ofBool b).setWidth 32

/-- `START m` (R135). -/
def pseudoStart (m : Bool) : List Event := [wr32 .ctrl (0x2#32 ||| bitWord m)]

/-- `STOP m` (R135). -/
def pseudoStop (m : Bool) : List Event := [wr32 .ctrl (bitWord m)]

/-- `SET_MASK_EN m`, with `started` the host's knowledge of CTRL.STARTED (R135). -/
def pseudoSetMaskEn (started m : Bool) : List Event := [wr32 .ctrl ((bitWord started <<< 1) ||| bitWord m)]

/-- `REFRESH_KEY k` (R135). -/
def pseudoRefreshKey (k : Word) : List Event := wr32 .keyStage k :: issue .setMaskKey

/-- `ENQUEUE_TEXT L` (R135). -/
def pseudoEnqueueText (len : Nat) : List Event := issue (.encode .text len)

/-- `ENQUEUE_BINARY op, L` (R135). -/
def pseudoEnqueueBinary (op : FrameOpcode) (len : Nat) : List Event := issue (.encode op len)

/-- `SEND_PING` (R135). -/
def pseudoSendPing : List Event := issue (.encode .ping 0)

/-- `SEND_PONG` (R135). -/
def pseudoSendPong : List Event := issue (.encode .pong 0)

/-- `SEND_CLOSE` (R135). -/
def pseudoSendClose : List Event := issue (.encode .close 0)

/-- `DRAIN_PAYLOAD len`, with `rxLen` what the host read from RX_LEN (R135, 20_memory R86). -/
def pseudoDrainPayload (len rxLen : Nat) : List Event := rd8Range .rxbuf 0 (min len rxLen) ++ issue .drain

/-- `IS_SEND_BUSY`: the read, and the bit of the answer (R135). -/
def pseudoIsSendBusy : List Event × (Word → Bool) := ([rd32 .status], fun v => v.getLsbD 1)

/-- `IS_STARTED`: the read, and the bit of the answer (R135). -/
def pseudoIsStarted : List Event × (Word → Bool) := ([rd32 .ctrl], fun v => v.getLsbD 1)

/-- A host query with a condition: a first read, the reads its answer calls for, and the result from both (R135). -/
structure Query where
  /-- The first statement. -/
  first : Event
  /-- The statements after the first one's answer. -/
  follow : Word → List Event
  /-- The result, from the first answer and the answers that follow. -/
  result : Word → List Word → Word

/-- `AVAILABLE_PAYLOAD_LEN` (R135): `RD32 STATUS`; if bit 2 = 1 then `RD32 RX_LEN` else 0. -/
def pseudoAvailablePayloadLen : Query where
  first := rd32 .status
  follow status := if status.getLsbD 2 then [rd32 .rxLen] else []
  result status answers := if status.getLsbD 2 then answers.headD 0 else 0

/-- `POLL`, with `reaction` what the host does between DECODE and FLUSH (R135, 42_encode R261). -/
def pseudoPoll (reaction : List Event) : List Event := issue .decode ++ reaction ++ issue .flush

/-- The boot order after power-on or CLEAR, up to the poll loop (70_reset R403): CTRL, the mask key if masking, the accept
key of the request key, START. -/
def bootOrder (m : Bool) (k : Word) (requestKey : List Byte) : List Event :=
  [wr32 .ctrl (bitWord m)] ++ (if m then pseudoRefreshKey k else []) ++
    wr8Range .keyin 0 requestKey ++ issue (.deriveKey requestKey.length) ++ rd8Range .accept 0 28 ++
    pseudoStart m

end Sys2Proof.Machine
end

