-- ==== Sys2Proof/Tests/Slice0.lean ====
section
/-! SUPPORT. The model's own tests: the encodings written out from 30_encoding, the vectors of 95_test_vectors (each theorem
names its rows), and for each statement with hypotheses a state that meets them. -/

namespace Sys2Proof.Tests

open Sys2Proof.Machine Sys2Proof.Claims

/-! ### Small states -/

/-- What `f` sees of the next state, if there is one. -/
def view {α : Type} (r : Result) (f : State → α) : Option α :=
  match r with
  | .next t => some (f t)
  | .fault _ => none
  | .refused _ => none

/-- The fault, if the outcome is one. -/
def faultOf (r : Result) : Option Fault :=
  match r with
  | .next _ => none
  | .fault f => some f
  | .refused _ => none

/-- "Hello" (95_test_vectors L2). -/
def hello : List Byte := [0x48#8, 0x65#8, 0x6C#8, 0x6C#8, 0x6F#8]

/-- S0 with STARTED = 1 and these bytes in the receive stream (L2.2). -/
def stream (bytes : List Byte) : State := { State.reset with started := true, rxs := bytes }

/-- S0 with this MASK_EN, MASK_KEY and PIN; MASK_FRESH = MASK_EN (L2.3). -/
def staged (m : Bool) (k : Word) (payload : List Byte) : State :=
  { State.reset with maskEn := m, maskKey := k, maskFresh := m, pin := Memory.writeBytes [] 0 payload }

/-- S0 with a queued frame "Hello" (L2.3 row E1), STARTED as given, and the transport's next answer. -/
def queued (st : Bool) (answers : List TxAnswer) : State :=
  { State.reset with
    started := st, txBusy := true, txLen := 7#17, txAnswers := answers
    txbuf := Memory.writeBytes [] 0 ([0x81#8, 0x05#8] ++ hello) }

/-- S0 with one input pending. -/
def given (e : Event) : State := { State.reset with pending := [e] }

/-- The frame "Hello", unmasked and masked (L2.2 rows D4, D5). -/
def helloFrame : List Byte := [0x81#8, 0x05#8] ++ hello

/-- See `helloFrame`. -/
def helloMasked : List Byte :=
  [0x81#8, 0x85#8, 0x37#8, 0xFA#8, 0x21#8, 0x3D#8, 0x7F#8, 0x9F#8, 0x4D#8, 0x51#8, 0x58#8]

/-! ### Well-formedness -/

/-- Each check refuses a term (30_encoding R132: ARG is 16 bits) and admits the largest value. -/
theorem test_wellFormed_refuses :
    WellFormed (.encode .text 65536) = false ∧ WellFormed (.deriveKey 65536) = false ∧
    WellFormed (.encode .text 65535) = true ∧ WellFormed (.deriveKey 65535) = true := by decide

/-! ### Decoding, by words written out from 30_encoding R121, R123, R130, R131, R134 -/

theorem test_decode_commands :
    decodeTableWord 32 0x00000000 = some .reservedCmd0 ∧ decodeTableWord 32 0x00000001 = some .decode ∧
    decodeTableWord 32 0x00000002 = some .drain ∧ decodeTableWord 32 0x012C00B3 = some (.encode .reservedB 300) ∧
    decodeTableWord 32 0x00000004 = some .flush ∧ decodeTableWord 32 0x00000005 = some .setMaskKey ∧
    decodeTableWord 32 0x00400006 = some (.deriveKey 64) ∧ decodeTableWord 32 0x00000007 = some .clear ∧
    decodeTableWord 32 0x00000008 = some .reservedCmd8 ∧ decodeTableWord 32 0x00000009 = some .reservedCmd9 ∧
    decodeTableWord 32 0x0000000A = some .reservedCmdA ∧ decodeTableWord 32 0x0000000B = some .reservedCmdB ∧
    decodeTableWord 32 0x0000000C = some .reservedCmdC ∧ decodeTableWord 32 0x0000000D = some .reservedCmdD ∧
    decodeTableWord 32 0x0000000E = some .reservedCmdE ∧ decodeTableWord 32 0x0000000F = some .reservedCmdF := by
  decide

theorem test_decode_frames :
    decodeTableWord 8 0b10000000 = some (.frameContinuation true false false false) ∧
    decodeTableWord 8 0b10000001 = some (.frameText true false false false) ∧
    decodeTableWord 8 0b01000010 = some (.frameBinary false true false false) ∧
    decodeTableWord 8 0b01110011 = some (.frameReserved3 false true true true) ∧
    decodeTableWord 8 0b00100100 = some (.frameReserved4 false false true false) ∧
    decodeTableWord 8 0b00010101 = some (.frameReserved5 false false false true) ∧
    decodeTableWord 8 0b10000110 = some (.frameReserved6 true false false false) ∧
    decodeTableWord 8 0b10000111 = some (.frameReserved7 true false false false) ∧
    decodeTableWord 8 0b10001000 = some (.frameClose true false false false) ∧
    decodeTableWord 8 0b10001001 = some (.framePing true false false false) ∧
    decodeTableWord 8 0b10001010 = some (.framePong true false false false) ∧
    decodeTableWord 8 0b10001011 = some (.frameReservedB true false false false) ∧
    decodeTableWord 8 0b10001100 = some (.frameReservedC true false false false) ∧
    decodeTableWord 8 0b10001101 = some (.frameReservedD true false false false) ∧
    decodeTableWord 8 0b10001110 = some (.frameReservedE true false false false) ∧
    decodeTableWord 8 0b11111111 = some (.frameReservedF true true true true) := by
  decide

/-- The decoder rejects by name what is no instruction's size or does not fit it. -/
theorem test_decode_rejects :
    decodeBits 16 0x81 = .error (.noSuchSize 16) ∧ decodeBits 8 0x181 = .error (.doesNotFit 8 0x181) ∧
    decodeBits 32 0x100000001 = .error (.doesNotFit 32 0x100000001) := ⟨rfl, rfl, rfl⟩

/-- R134: the encoder's words for the rows of L2. -/
theorem test_encode_words :
    encode (.encode .text 5) = .command 0x00050013#32 ∧ encode (.encode .binary 300) = .command 0x012C0023#32 ∧
    encode (.deriveKey 65) = .command 0x00410006#32 ∧ encode .clear = .command 0x00000007#32 ∧
    encode (.framePing true false false false) = .wire 0x89#8 := by decide

/-! ### The mask engine and SET_MASK_KEY -/

/-- L2.1 rows X1, X3, X6. -/
theorem test_maskXor :
    maskXor hello 0x37FA213D#32 = [0x7F#8, 0x9F#8, 0x4D#8, 0x51#8, 0x58#8] ∧
    maskXor (List.replicate 9 0x00#8) 0x01020304#32 =
      [0x01#8, 0x02#8, 0x03#8, 0x04#8, 0x01#8, 0x02#8, 0x03#8, 0x04#8, 0x01#8] ∧
    maskXor [] 0x01020304#32 = [] := by decide

/-- L2.5 row K2. -/
theorem test_setMaskKey :
    view (exec .setMaskKey { State.reset with keyStage := 0x37FA213D#32 }) (fun t => (t.maskKey, t.statusWord)) =
      some (0x37FA213D#32, 0x00000008#32) := by decide +kernel

/-! ### DECODE and DRAIN -/

/-- L2.2 rows D4 and D5: STATUS, RX_HDR, RX_LEN, RX_MKEY and the payload. -/
theorem test_decode_hello :
    view (exec .decode (stream helloFrame)) (fun t => (t.statusWord, t.rxHdr, t.rxLen, t.rxMkey)) =
      some (0x00000014#32, 0x8105#16, 5#16, 0#32) ∧
    view (exec .decode (stream helloFrame)) (fun t => (t.rxbuf.map Prod.snd, t.rxs)) = some (hello, []) ∧
    view (exec .decode (stream helloMasked)) (fun t => (t.statusWord, t.rxHdr, t.rxLen, t.rxMkey)) =
      some (0x00000014#32, 0x8185#16, 5#16, 0x37FA213D#32) ∧
    view (exec .decode (stream helloMasked)) (fun t => (t.rxbuf.map Prod.snd, t.rxs)) = some (hello, []) := by
  decide +kernel

/-- L2.2 rows D1, D3, D7, D8, D11, D12, D19: STATUS, RX_LEN and the bytes left. -/
theorem test_decode_codes :
    view (exec .decode { stream helloFrame with started := false }) (fun t => (t.statusWord, t.rxLen, t.rxs.length)) =
      some (0x00000110#32, 0#16, 7) ∧
    view (exec .decode (stream [0x81#8])) (fun t => (t.statusWord, t.rxLen, t.rxs.length)) =
      some (0x00000710#32, 0#16, 1) ∧
    view (exec .decode (stream [0x89#8, 0x80#8, 0x37#8, 0xFA#8, 0x21#8, 0x3D#8]))
        (fun t => (t.statusWord, t.rxLen, t.rxs.length)) = some (0x00000610#32, 0#16, 4) ∧
    view (exec .decode (stream [0x81#8, 0x81#8, 0x37#8, 0xFA#8, 0x21#8, 0x3D#8, 0x7F#8]))
        (fun t => (t.statusWord, t.rxLen, t.rxs.length)) = some (0x00000610#32, 0#16, 5) ∧
    view (exec .decode (stream ([0x82#8, 0x7F#8] ++ List.replicate 8 0x00#8)))
        (fun t => (t.statusWord, t.rxLen, t.rxs.length)) = some (0x00000510#32, 0#16, 8) ∧
    view (exec .decode (stream [0x82#8, 0x7E#8, 0x01#8])) (fun t => (t.statusWord, t.rxLen, t.rxs.length)) =
      some (0x00000410#32, 0#16, 1) ∧
    view (exec .decode (stream (helloFrame.take 5))) (fun t => (t.statusWord, t.rxLen, t.rxs.length)) =
      some (0x00000410#32, 3#16, 0) := by decide +kernel

/-- L2.2 rows D9, D10 and D22: a masked frame with bytes behind it, one of two bytes, and the key's cycle after an extended
length. -/
theorem test_decode_masked :
    view (exec .decode (stream [0x89#8, 0x80#8, 0x37#8, 0xFA#8, 0x21#8, 0x3D#8, 0x8A#8, 0x00#8]))
        (fun t => (t.statusWord, t.rxMkey, t.rxs.length)) = some (0x00000014#32, 0x37FA213D#32, 2) ∧
    view (exec .decode (stream [0x81#8, 0x82#8, 0x37#8, 0xFA#8, 0x21#8, 0x3D#8, 0x7F#8, 0x9F#8]))
        (fun t => (t.statusWord, t.rxLen, t.rxbuf.map Prod.snd)) = some (0x00000014#32, 2#16, [0x48#8, 0x65#8]) ∧
    view (exec .decode (stream ([0x82#8, 0xFE#8, 0x00#8, 0x80#8, 0x01#8, 0x02#8, 0x03#8, 0x04#8] ++
        List.replicate 128 0x00#8)))
        (fun t => (t.statusWord, t.rxDlen, t.rxLen, (t.rxbuf.take 5).map Prod.snd, t.rxs.length)) =
      some (0x00000014#32, 128#16, 128#16, [0x01#8, 0x02#8, 0x03#8, 0x04#8, 0x01#8], 0) := by decide +kernel

/-- L2.2 rows D16 to D18: RX_CAP, one more, and one more with the stream short. -/
theorem test_decode_capacity :
    view (exec .decode (stream ([0x82#8, 0x7E#8, 0x01#8, 0x2C#8] ++ List.replicate 300 0x00#8)))
        (fun t => (t.statusWord, t.rxDlen, t.rxLen, t.rxs.length)) = some (0x00000014#32, 300#16, 300#16, 0) ∧
    view (exec .decode (stream ([0x82#8, 0x7E#8, 0x01#8, 0x2D#8] ++ List.replicate 301 0x00#8)))
        (fun t => (t.statusWord, t.rxDlen, t.rxLen, t.rxs.length)) = some (0x00000310#32, 301#16, 300#16, 1) ∧
    view (exec .decode (stream ([0x82#8, 0x7E#8, 0x01#8, 0x2D#8] ++ List.replicate 100 0x00#8)))
        (fun t => (t.statusWord, t.rxDlen, t.rxLen, t.rxs.length)) = some (0x00000410#32, 301#16, 100#16, 0) := by
  decide +kernel

/-- L2.2 row D21, as the frame of its header byte 73 and as DECODE of the stream that begins with it. -/
theorem test_frame_reserved3 :
    view (exec (.frameReserved3 false true true true) (stream [0x01#8, 0xAA#8]))
        (fun t => (t.statusWord, t.rxHdr, t.rxLen, t.rxbuf.map Prod.snd)) =
      some (0x00000014#32, 0x7301#16, 1#16, [0xAA#8]) ∧
    view (exec .decode (stream [0x73#8, 0x01#8, 0xAA#8]))
        (fun t => (t.statusWord, t.rxHdr, t.rxLen, t.rxbuf.map Prod.snd)) =
      some (0x00000014#32, 0x7301#16, 1#16, [0xAA#8]) := by decide +kernel

/-- L2.2 row D6, as a frame, and the hook of 60_exceptions R367. -/
theorem test_frame_ping :
    view (exec (.framePing true false false false) (stream [0x00#8])) (fun t => (t.statusWord, t.rxHdr, t.rxLen)) =
      some (0x00000014#32, 0x8900#16, 0#16) := by decide +kernel

/-- L2.7 row R1. -/
theorem test_drain :
    view (exec .drain { State.reset with rxValid := true, rxLen := 5, rxDlen := 5, rxHdr := 0x8105 })
        (fun t => (t.statusWord, t.rxLen, t.rxHdr, t.rxDlen)) = some (0x00000010#32, 0#16, 0x8105#16, 5#16) := by
  decide +kernel

/-! ### ENCODE and FLUSH -/

/-- L2.3 rows E1, E2, E4. -/
theorem test_encode_frames :
    view (exec (.encode .text 5) (staged false 0 hello)) (fun t => (t.statusWord, t.txLen, t.txbuf.map Prod.snd)) =
      some (0x00000002#32, 7#17, helloFrame) ∧
    view (exec (.encode .text 5) (staged true 0x37FA213D#32 hello))
        (fun t => (t.statusWord, t.txLen, t.txbuf.map Prod.snd)) = some (0x00000002#32, 11#17, helloMasked) ∧
    view (exec (.encode .close 0) (staged true 0x37FA213D#32 []))
        (fun t => (t.statusWord, t.txLen, t.txbuf.map Prod.snd)) =
      some (0x00000002#32, 6#17, [0x88#8, 0x80#8, 0x37#8, 0xFA#8, 0x21#8, 0x3D#8]) := by decide +kernel

/-- L2.3 rows E7, E10, E12, and L2.9 row S14. -/
theorem test_encode_corners :
    view (exec (.encode .binary 126) (staged true 0x01020304#32 ((List.range 126).map (BitVec.ofNat 8))))
        (fun t => (t.statusWord, t.txLen, (t.txbuf.map Prod.snd).take 12)) =
      some (0x00000002#32, 134#17,
        [0x82#8, 0xFE#8, 0x00#8, 0x7E#8, 0x01#8, 0x02#8, 0x03#8, 0x04#8, 0x01#8, 0x03#8, 0x01#8, 0x07#8]) ∧
    view (exec (.encode .binary 301) (staged false 0 hello)) (fun t => (t.statusWord, t.txLen, t.txbuf)) =
      some (0x00000310#32, 0#17, []) ∧
    view (exec (.encode .text 301) (queued false [])) (fun t => (t.statusWord, t.txLen)) =
      some (0x00000202#32, 7#17) ∧
    faultOf (exec (.encode .text 1) State.reset) = some (.unwritten .pin 0) := by decide +kernel

/-- L2.4 rows F1, F3, F4. -/
theorem test_flush :
    view (exec .flush (queued false [])) (fun t => (t.statusWord, t.txLen, t.txs)) =
      some (0x00000102#32, 7#17, []) ∧
    view (exec .flush (queued true [.ok])) (fun t => (t.statusWord, t.txLen, t.txs)) =
      some (0x00000010#32, 7#17, helloFrame) ∧
    view (exec .flush (queued true [.err 3])) (fun t => (t.statusWord, t.txLen, t.txs)) =
      some (0x00000810#32, 7#17, helloFrame.take 3) := by decide +kernel

/-- L2.4 row F2. -/
theorem test_flush_idle :
    view (exec .flush (stream [])) (fun t => (t.statusWord, t.txs)) = some (0x00000710#32, []) := by decide +kernel

/-! ### DERIVE_KEY -/

/-- L1.2: the SHA-1 of "abc". -/
theorem test_sha1_abc :
    sha1 [0x61#8, 0x62#8, 0x63#8] =
      [0xA9#8, 0x99#8, 0x3E#8, 0x36#8, 0x47#8, 0x06#8, 0x81#8, 0x6A#8, 0xBA#8, 0x3E#8] ++
      [0x25#8, 0x71#8, 0x78#8, 0x50#8, 0xC2#8, 0x6C#8, 0x9C#8, 0xD0#8, 0xD8#8, 0x9D#8] := by decide +kernel

/-- L2.6 rows H5 (the accept key of "abc") and H11 (a key of KEY_MAX + 1 bytes). -/
theorem test_deriveKey :
    view (exec (.deriveKey 3) { State.reset with keyin := Memory.writeBytes [] 0 [0x61#8, 0x62#8, 0x63#8] })
        (fun t => (t.statusWord, t.accept.map Prod.snd)) =
      some (0x00000010#32,
        [0x7A#8, 0x77#8, 0x4B#8, 0x64#8, 0x35#8, 0x42#8, 0x6E#8, 0x6F#8, 0x57#8, 0x78#8, 0x51#8, 0x36#8, 0x47#8, 0x78#8] ++
        [0x54#8, 0x78#8, 0x78#8, 0x53#8, 0x6D#8, 0x42#8, 0x53#8, 0x48#8, 0x47#8, 0x48#8, 0x58#8, 0x39#8, 0x4D#8, 0x3D#8]) ∧
    view (exec (.deriveKey 65) State.reset) (fun t => (t.statusWord, t.accept)) =
      some (0x00000A10#32, []) := by decide +kernel

/-- L2.6 row H10: 64 bytes `A`, two padded blocks. -/
theorem test_deriveKey_longest :
    view (exec (.deriveKey 64) { State.reset with keyin := Memory.writeBytes [] 0 (List.replicate 64 0x41#8) })
        (fun t => t.accept.map Prod.snd) =
      some (
        [0x43#8, 0x4E#8, 0x56#8, 0x43#8, 0x67#8, 0x71#8, 0x72#8, 0x4F#8, 0x76#8, 0x39#8, 0x63#8, 0x71#8, 0x2F#8, 0x68#8] ++
        [0x5A#8, 0x74#8, 0x65#8, 0x45#8, 0x6D#8, 0x4A#8, 0x58#8, 0x69#8, 0x74#8, 0x78#8, 0x2B#8, 0x63#8, 0x55#8, 0x3D#8]) := by
  decide +kernel

/-! ### CLEAR, reserved commands, host accesses -/

/-- L2.8 row C1. -/
theorem test_clear :
    view (exec .clear { queued true [] with
        maskEn := true, rxValid := true, maskFresh := true, maskKey := 0x37FA213D, keyStage := 0x37FA213D })
        (fun t => (t.statusWord, t.ctrlWord, t.maskKey, t.keyStage, t.txLen, t.txbuf.length)) =
      some (0x00000010#32, 0x1#32, 0#32, 0x37FA213D#32, 0#17, 7) := by decide +kernel

/-- L2.9 rows S7 to S9: commands written to CMD. -/
theorem test_commands_from_the_bus :
    view (step (given (wr32 .cmd 0x0000000F#32))) State.statusWord = some 0x00000910#32 ∧
    view (step (given (wr32 .cmd 0x00000000#32))) State.statusWord = some 0x00000910#32 ∧
    view (step (given (wr32 .cmd 0x00000008#32))) State.statusWord = some 0x00000910#32 ∧
    view (step { given (wr32 .cmd 0xFFFF0F07#32) with started := true }) State.ctrlWord = some 0#32 := by
  decide +kernel

/-- L2.9 rows S2 to S6: register reads and writes. -/
theorem test_registers :
    view (step (given (wr32 .ctrl 0xFFFFFFFF#32))) State.ctrlWord = some 0x00000003#32 ∧
    view (step (given (wr32 .status 0xFFFFFFFF#32))) State.statusWord = some 0x00000010#32 ∧
    view (step (given (rd32 .cmd))) State.hostReads = some [0#32] ∧
    view (step (given (.read 4 0x028#19))) State.hostReads = some [0#32] ∧
    view (step (given (wr32 .keyStage 0x89ABCDEF#32))) (fun t => t.readRegister .keyStage) = some 0x89ABCDEF#32 := by
  decide +kernel

/-- L2.9 rows S10 to S13, S15 and S16: faults, a read-only window, a reserved range. -/
theorem test_bus_faults :
    faultOf (step (given (.read 1 0x000#19))) = some .hostBusError ∧
    faultOf (step (given (.read 4 0x002#19))) = some .hostBusError ∧
    faultOf (step (given (.read 4 0x60000#19))) = some .hostBusError ∧
    faultOf (step (given (rd8 .rxbuf 0))) = some (.unwritten .rxbuf 0) ∧
    view (step (given (wr8 .txbuf 0 0x55#8))) State.txbuf = some [] ∧
    view (step (given (.read 1 0x30000#19))) State.hostReads = some [0#32] := by decide +kernel

/-- 20_memory R85, R87 at the ends of a window: PIN[299] is written, offset 0x20000 + 300 is reserved. -/
theorem test_window_ends :
    view (step (given (wr8 .pin 299 0x55#8))) State.pin = some [(299, 0x55#8)] ∧
    view (step (given (wr8 .pin 300 0x55#8))) State.pin = some [] ∧
    view (step (given (wr8 .keyin 63 0x55#8))) State.keyin = some [(63, 0x55#8)] := by decide +kernel

/-- 60_exceptions R367: after DECODE of a Ping, the ping-received condition. -/
theorem test_hook_ping :
    view (step ((stream []).withFetchWord 8 0x89)) (fun t => (hookFires .decode t .pingReceived,
      hookFires .decode t .pongReceived)) = some (true, false) := by decide +kernel

/-- 30_encoding R135, AVAILABLE_PAYLOAD_LEN, by the answers a host gets: with "Hello" delivered STATUS is 0x00000014 and the
result is the answer to RD32 RX_LEN (L3 program 1); with STATUS 0x00000010 nothing more is read and the result is 0. -/
theorem test_availablePayloadLen :
    pseudoAvailablePayloadLen.first = .read 4 0x008#19 ∧
    pseudoAvailablePayloadLen.follow 0x00000014#32 = [.read 4 0x01C#19] ∧
    pseudoAvailablePayloadLen.result 0x00000014#32 [5#32] = 5#32 ∧
    pseudoAvailablePayloadLen.follow 0x00000010#32 = [] ∧
    pseudoAvailablePayloadLen.result 0x00000010#32 [] = 0#32 := by decide

/-! ### Buffers -/

theorem test_memory_canonical :
    Memory.write [(1, 0x10#8), (3, 0x30#8)] 2 0x20#8 = [(1, 0x10#8), (2, 0x20#8), (3, 0x30#8)] ∧
    Memory.write [(1, 0x10#8)] 1 0x11#8 = [(1, 0x11#8)] ∧ Memory.wf State.reset.pin := by decide

/-! ### States that meet the hypotheses of the statements -/

/-- A masked "Hello" of which two payload bytes have arrived (L2.2 row D20). -/
def shortMasked : State := stream (helloMasked.take 8)

/-- A whole frame of 301 bytes, one more than RX_CAP (L2.2 row D17). -/
def oversize : State := stream ([0x82#8, 0x7E#8, 0x01#8, 0x2D#8] ++ List.replicate 301 0x00#8)

theorem test_DecodeOfEncodeIsTheInstruction_witness :
    WellFormed (.encode .reservedF 65535) = true ∧ WellFormed (.deriveKey 0) = true ∧
    WellFormed (.frameReservedF true true true true) = true := by decide

/-- A reserved CMDOP at each end of its ranges; words apart in ignored bits only, for a command of each kind. -/
theorem test_IgnoredCommandBitsDoNotMatter_witness :
    cmdOp 0xFFFFFFF0#32 = 0x0#4 ∧ 0x8#4 ≤ cmdOp 0x00000008#32 ∧ 0x8#4 ≤ cmdOp 0xFFFFFFFF#32 ∧
    (cmdOp 0x00051F13#32 = 0x3#4 ∧ cmdOp 0x00050013#32 = 0x3#4 ∧ cmdFopc 0x00051F13#32 = cmdFopc 0x00050013#32 ∧
      cmdArg 0x00051F13#32 = cmdArg 0x00050013#32) ∧
    (cmdOp 0x00180FF6#32 = cmdOp 0x00180006#32 ∧ cmdArg 0x00180FF6#32 = cmdArg 0x00180006#32) ∧
    cmdOp 0xFFFF0F07#32 = cmdOp 0x00000007#32 := by decide

theorem test_CmdWriteRunsTheCommand_witness :
    (given (.write 4 0x004#19 1#32)).cmdActive = false ∧
    (given (.write 4 0x004#19 1#32)).pending = .write 4 0x004#19 1#32 :: [] ∧
    (∃ t, step (given (.write 4 0x004#19 1#32)) = .next t) ∧
    (given (.read 4 0x004#19)).cmdActive = false ∧ (given (.read 4 0x004#19)).pending = .read 4 0x004#19 :: [] :=
  ⟨rfl, rfl, ⟨_, rfl⟩, rfl, rfl⟩

theorem test_PlacedInstructionIsTheOneThatRuns_witness :
    decodeTableWord 32 0xFFFFFFFF = some .reservedCmdF ∧
    decodeTableWord 8 0xFF = some (.frameReservedF true true true true) := by decide

theorem test_DecodeRunsTheFrameAtTheFront_witness : (stream [0x81#8]).rxs = 0x81#8 :: [] := rfl

theorem test_PeerAppendsAtTheEnd_witness : (given (.peer [0x81#8])).pending = .peer [0x81#8] :: [] := rfl

/-- A host access of each clause while CMD_ACTIVE = 1. -/
theorem test_AccessWhileActiveIsRefused_witness :
    ({ given (.read 4 0x004#19) with cmdActive := true }.cmdActive = true ∧
      { given (.read 4 0x004#19) with cmdActive := true }.pending = .read 4 0x004#19 :: [] ∧
      ¬ ((4 : Nat) = 4 ∧ (0x004#19 : Addr) = 0x008#19)) ∧
    { given (.write 4 0x008#19 0#32) with cmdActive := true }.pending = .write 4 0x008#19 0#32 :: [] ∧
    { given (.read 4 0x008#19) with cmdActive := true }.pending = .read 4 0x008#19 :: [] :=
  ⟨⟨rfl, rfl, by decide⟩, rfl, rfl⟩

/-- Legal and illegal accesses at the edges of the map (20_memory R81, R82). -/
theorem test_IllegalAccessIsABusError_witness :
    (given (.read 4 0x000FC#19)).cmdActive = false ∧
    (given (.read 4 0x000FC#19)).pending = .read 4 0x000FC#19 :: [] ∧
    (given (.write 1 0x000FF#19 0#32)).pending = .write 1 0x000FF#19 0#32 :: [] ∧
    LegalAccess 4 0x000FC#19 ∧ ¬ LegalAccess 1 0x000FF#19 ∧ LegalAccess 1 0x00100#19 ∧ ¬ LegalAccess 4 0x00100#19 ∧
    ¬ LegalAccess 4 0x00198#19 ∧ LegalAccess 4 0x0019C#19 ∧ LegalAccess 4 0x1FFFC#19 ∧ ¬ LegalAccess 4 0x20000#19 ∧
    LegalAccess 4 0x7FFFC#19 ∧ LegalAccess 1 0x7FFFF#19 ∧ ¬ LegalAccess 2 0x30000#19 ∧ ¬ LegalAccess 4 0x30002#19 := by
  unfold LegalAccess WordRange
  refine ⟨rfl, rfl, rfl, ?_, ?_, ?_, ?_, ?_, ?_, ?_, ?_, ?_, ?_, ?_, ?_⟩ <;> decide

theorem test_RegisterReadAnswersTheRegister_witness :
    (given (.read 4 0x0FC#19)).cmdActive = false ∧ (0x0FC#19).toNat < 0x100 ∧ (0x0FC#19).toNat % 4 = 0 ∧
    (0x024#19).toNat < 0x100 ∧ (0x024#19).toNat % 4 = 0 ∧
    (given (.read 4 0x0FC#19)).pending = .read 4 0x0FC#19 :: [] := ⟨rfl, by decide, by decide, by decide, by decide, rfl⟩

theorem test_RegisterWriteStoresOrRuns_witness :
    (given (.write 4 0x010#19 7#32)).cmdActive = false ∧ (0x000#19).toNat % 4 = 0 ∧ (0x004#19).toNat % 4 = 0 ∧
    (0x010#19).toNat < 0x100 ∧ (0x0FC#19).toNat < 0x100 ∧
    (given (.write 4 0x010#19 7#32)).pending = .write 4 0x010#19 7#32 :: [] :=
  ⟨rfl, by decide, by decide, by decide, by decide, rfl⟩

/-- The first and last index of each window under CFG_T. -/
theorem test_BufferReadAnswersTheByte_witness :
    State.reset.cfg.Legal ∧ (given (.read 1 0x2012B#19)).cmdActive = false ∧
    299 < bufferCapacity State.reset.cfg .pin ∧ (0x2012B#19).toNat = windowStart .pin + 299 ∧
    307 < bufferCapacity State.reset.cfg .txbuf ∧ (0x40133#19).toNat = windowStart .txbuf + 307 ∧
    0 < bufferCapacity State.reset.cfg .rxbuf ∧ (0x60000#19).toNat = windowStart .rxbuf + 0 ∧
    63 < bufferCapacity State.reset.cfg .keyin ∧ (0x0013F#19).toNat = windowStart .keyin + 63 ∧
    27 < bufferCapacity State.reset.cfg .accept ∧ (0x0019B#19).toNat = windowStart .accept + 27 ∧
    (given (.read 1 0x2012B#19)).pending = .read 1 0x2012B#19 :: [] := by
  refine ⟨by decide, rfl, by decide, by decide, by decide, by decide, by decide, by decide, by decide, by decide, by decide,
    by decide, rfl⟩

/-- A write within PIN, one into TXBUF, and one of a register, which changes no buffer. -/
theorem test_BufferWriteSetsTheByte_witness :
    (State.reset.cfg.Legal ∧ (given (.write 1 0x2012B#19 0x155#32)).cmdActive = false ∧
      299 < bufferCapacity State.reset.cfg .pin ∧ (0x2012B#19).toNat = windowStart .pin + 299 ∧
      (given (.write 1 0x2012B#19 0x155#32)).pending = .write 1 0x2012B#19 0x155#32 :: []) ∧
    ((given (.write 4 0x000#19 3#32)).pending = .write 4 0x000#19 3#32 :: [] ∧
      (∃ t, step (given (.write 4 0x000#19 3#32)) = .next t) ∧ ¬ ((4 : Nat) = 4 ∧ (0x000#19 : Addr) = 0x004#19) ∧
      ¬ ((4 : Nat) = 1 ∧ ∃ b i, (b = Buffer.keyin ∨ b = .pin) ∧ i < bufferCapacity State.reset.cfg b ∧
        (0x000#19).toNat = windowStart b + i)) := by
  refine ⟨⟨by decide, rfl, by decide, by decide, rfl⟩, rfl, ⟨_, rfl⟩, by decide, fun h => absurd h.1 (by decide)⟩

/-- The ends of the reserved ranges, and the first byte past each buffer under CFG_T (ACCEPT's window has none). -/
theorem test_ReservedOffsetsReadZeroAndIgnoreWrites_witness :
    let c := State.reset.cfg
    (given (.read 1 0x0013F#19)).cmdActive = false ∧ c.Legal ∧
    (given (.read 4 0x0019C#19)).pending = .read 4 0x0019C#19 :: [] ∧
    (given (.write 1 0x7FFFF#19 1#32)).pending = .write 1 0x7FFFF#19 1#32 :: [] ∧
    ReservedAccess c 4 0x00028#19 ∧ ReservedAccess c 4 0x000FC#19 ∧ ReservedAccess c 1 0x00140#19 ∧
    ReservedAccess c 4 0x0019C#19 ∧ ReservedAccess c 1 0x1FFFF#19 ∧ ReservedAccess c 1 0x2012C#19 ∧
    ReservedAccess c 4 0x30000#19 ∧ ReservedAccess c 1 0x3FFFF#19 ∧ ReservedAccess c 1 0x40134#19 ∧
    ReservedAccess c 1 0x6012C#19 ∧ ReservedAccess c 1 0x70000#19 ∧ ReservedAccess c 4 0x7FFFC#19 ∧
    ¬ ReservedAccess c 1 0x2012B#19 ∧ ¬ ReservedAccess c 4 0x00024#19 := by
  unfold ReservedAccess ReservedRange WindowTail
  refine ⟨rfl, by decide, rfl, rfl, ?_, ?_, ?_, ?_, ?_, ?_, ?_, ?_, ?_, ?_, ?_, ?_, ?_, ?_⟩ <;> decide

theorem test_HostReadHasNoSideEffect_witness :
    (given (.read 4 0x008#19)).pending = .read 4 0x008#19 :: [] ∧ ∃ t, step (given (.read 4 0x008#19)) = .next t :=
  ⟨rfl, _, rfl⟩

theorem test_StatusWordHasItsFields_witness :
    (given (.write 4 0x008#19 0xFFFFFFFF#32)).cmdActive = false ∧
    (given (.write 4 0x008#19 0xFFFFFFFF#32)).pending = .write 4 0x008#19 0xFFFFFFFF#32 :: [] ∧
    (given .powerOn).pending = .powerOn :: [] := ⟨rfl, rfl, rfl⟩

theorem test_CtrlHasItsFields_witness :
    (given (.write 4 0x000#19 0xFFFFFFFF#32)).cmdActive = false ∧
    (given (.write 4 0x000#19 0xFFFFFFFF#32)).pending = .write 4 0x000#19 0xFFFFFFFF#32 :: [] ∧
    (given .powerOn).pending = .powerOn :: [] := ⟨rfl, rfl, rfl⟩

/-- A step that sets and one that clears each flag. -/
theorem test_StatusFlagsHaveTheirSetters_witness :
    view (step { staged false 0 hello with pending := [wr32 .cmd 0x00050013#32] }) State.txBusy = some true ∧
    view (step { queued true [.ok] with pending := [wr32 .cmd 4#32] }) State.txBusy = some false ∧
    view (step { stream helloFrame with pending := [wr32 .cmd 1#32] }) State.rxValid = some true ∧
    view (step { State.reset with rxValid := true, pending := [wr32 .cmd 2#32] }) State.rxValid = some false ∧
    view (step (given (wr32 .cmd 5#32))) State.maskFresh = some true ∧
    view (step { staged true 7#32 hello with pending := [wr32 .cmd 0x00050013#32] }) State.maskFresh = some false := by
  decide +kernel

/-- A command that ends, and a step that is no command and no power-on. -/
theorem test_ErrIsTheLastCommandsCode_witness :
    (∃ t, exec .decode State.reset = .next t) ∧
    (∃ t, step (given (.peer [0x81#8])) = .next t) ∧
    (∀ i, ¬ NextIsCommand (given (.peer [0x81#8])) i) ∧ ¬ NextIsPowerOn (given (.peer [0x81#8])) := by
  refine ⟨⟨_, rfl⟩, ⟨_, rfl⟩, ?_, ?_⟩
  · rintro i ⟨w, rest, h, -⟩
    cases h
  · rintro ⟨rest, h⟩
    cases h

theorem test_MaskXorWorksByteByByte_witness : hello[4]? = some 0x6F#8 := rfl

theorem test_MaskXorLaws_witness :
    (hello[0]? = [0x48#8, 0x00#8][0]?) ∧ keyByte 0x37FA213D#32 (4 % 4) = keyByte 0x37000000#32 (4 % 4) := by decide

/-- A step that changes MASK_KEY and one that changes KEY_STAGE. -/
theorem test_MaskKeysHaveTheirWriters_witness :
    view (step { State.reset with keyStage := 7, pending := [wr32 .cmd 5#32] }) State.maskKey = some 7#32 ∧
    view (step (given (wr32 .keyStage 7#32))) State.keyStage = some 7#32 := by decide +kernel

theorem test_DecodeGate_witness :
    State.reset.started = false ∧ (stream [0x81#8]).started = true ∧ (stream [0x81#8]).rxs.length < 2 := by decide

theorem test_DecodeUnsupportedLength_witness :
    (stream [0x82#8, 0x7F#8, 0x00#8]).started = true ∧
    (stream [0x82#8, 0x7F#8, 0x00#8]).rxs = 0x82#8 :: 0x7F#8 :: [0x00#8] ∧ b1Len7 0x7F#8 = 127 ∧ b1Len7 0xFF#8 = 127 := by
  decide

/-- L2.2 row D12; a whole extended length; and the ends of the short lengths. -/
theorem test_DecodeDeclaredLength_witness :
    (let s := stream [0x82#8, 0x7E#8, 0x01#8]
     HeaderRead s ∧ b1Len7 (streamByte s 1) = 126 ∧ s.rxs.length < 4) ∧
    (let s := stream [0x82#8, 0x7E#8, 0xFF#8, 0xFF#8]
     HeaderRead s ∧ b1Len7 (streamByte s 1) = 126 ∧ 4 ≤ s.rxs.length) ∧
    (let s := stream [0x82#8, 0x7D#8]
     HeaderRead s ∧ b1Len7 (streamByte s 1) < 126) := by
  refine ⟨⟨⟨rfl, by decide⟩, by decide⟩, ⟨⟨rfl, by decide⟩, by decide⟩, ⟨rfl, by decide⟩, by decide⟩

/-- L2.2 rows D5 (masked) and D19 (unmasked). -/
theorem test_DecodeMaskKey_witness :
    (let s := stream helloMasked
     s.cfg.Legal ∧ HeaderRead s ∧ b1Len7 (streamByte s 1) ≠ 127 ∧ b1Masked (streamByte s 1) = true ∧
     s.cfg.maskAvailMin ≤ s.rxs.length - (frontHeader s - 4)) ∧
    (let s := stream (helloFrame.take 5)
     HeaderRead s ∧ b1Len7 (streamByte s 1) < 126 ∧ b1Masked (streamByte s 1) = false) := by
  refine ⟨⟨by decide, ⟨rfl, by decide⟩, by decide⟩, ⟨rfl, by decide⟩, by decide⟩

/-- L2.2 row D8: five bytes where six are asked for. -/
theorem test_DecodeMissingMaskKey_witness :
    let s := stream [0x81#8, 0x81#8, 0x37#8, 0xFA#8, 0x21#8, 0x3D#8, 0x7F#8]
    HeaderRead s ∧ b1Masked (streamByte s 1) = true ∧ b1Len7 (streamByte s 1) ≠ 127 ∧
    (b1Len7 (streamByte s 1) = 126 → 4 ≤ s.rxs.length) ∧
    s.rxs.length - (frontHeader s - 4) < s.cfg.maskAvailMin := by
  refine ⟨⟨rfl, by decide⟩, ?_⟩
  decide

/-- L2.2 row D20. -/
theorem test_DecodeTruncatedPayload_witness :
    shortMasked.cfg.Legal ∧ HeaderRead shortMasked ∧ b1Len7 (streamByte shortMasked 1) ≠ 127 ∧
    (b1Len7 (streamByte shortMasked 1) = 126 → 4 ≤ shortMasked.rxs.length) ∧
    (b1Masked (streamByte shortMasked 1) = true →
      shortMasked.cfg.maskAvailMin ≤ shortMasked.rxs.length - (frontHeader shortMasked - 4)) ∧
    shortMasked.rxs.length - frontHeader shortMasked < min (declaredLength shortMasked) shortMasked.cfg.rxCap := by
  refine ⟨by decide, ⟨rfl, by decide⟩, ?_⟩
  decide

/-- L2.2 rows D17 and D18: with RX_CAP payload bytes there, and with fewer. -/
theorem test_DecodePayloadTooLarge_witness :
    let short := stream (oversize.rxs.take 104)
    (oversize.cfg.Legal ∧ HeaderRead oversize ∧ b1Len7 (streamByte oversize 1) ≠ 127 ∧
      (b1Len7 (streamByte oversize 1) = 126 → 4 ≤ oversize.rxs.length) ∧ b1Masked (streamByte oversize 1) = false ∧
      oversize.cfg.rxCap < declaredLength oversize ∧ oversize.cfg.rxCap ≤ oversize.rxs.length - frontHeader oversize) ∧
    (HeaderRead short ∧ b1Len7 (streamByte short 1) ≠ 127 ∧ short.cfg.rxCap < declaredLength short ∧
      short.rxs.length - frontHeader short < short.cfg.rxCap) := by
  refine ⟨⟨by decide, ⟨rfl, by decide +kernel⟩, by decide +kernel⟩, ⟨rfl, by decide +kernel⟩, by decide +kernel⟩

/-- L2.2 rows D5 (masked) and D6 (an empty payload). -/
theorem test_DecodeDeliversTheFrame_witness :
    let s := stream helloMasked
    let e := stream [0x89#8, 0x00#8]
    (s.cfg.Legal ∧ HeaderRead s ∧ b1Len7 (streamByte s 1) ≠ 127 ∧
      (b1Masked (streamByte s 1) = true → s.cfg.maskAvailMin ≤ s.rxs.length - (frontHeader s - 4)) ∧
      declaredLength s ≤ s.cfg.rxCap ∧ frontHeader s + declaredLength s ≤ s.rxs.length) ∧
    (HeaderRead e ∧ b1Masked (streamByte e 1) = false ∧ declaredLength e = 0 ∧ frontHeader e = e.rxs.length) := by
  refine ⟨⟨by decide, ⟨rfl, by decide⟩, by decide⟩, ⟨rfl, by decide⟩, by decide⟩

/-- A state for each row of the outcome table. -/
theorem test_DecodeFollowsTheOutcomeTable_witness :
    State.reset.cfg.Legal ∧ (decodeOutcome State.reset).status = .connectionNotStarted ∧
    (decodeOutcome (stream [0x81#8])).status = .idle ∧
    (decodeOutcome (stream [0x82#8, 0x7F#8])).status = .unsupportedLength ∧
    (decodeOutcome (stream [0x82#8, 0x7E#8, 0x01#8])).consumed = 2 ∧
    (decodeOutcome (stream [0x89#8, 0x80#8, 0x37#8, 0xFA#8, 0x21#8, 0x3D#8])).status = .missingMaskKey ∧
    (decodeOutcome shortMasked).status = .truncatedRead ∧
    (decodeOutcome oversize).status = .payloadTooLarge ∧ (decodeOutcome (stream helloFrame)).status = .ok := by
  decide +kernel

theorem test_DecodeFrame_witness :
    (∃ t, exec .decode (stream helloFrame) = .next t) ∧ HeaderRead (stream helloFrame) ∧ ¬ HeaderRead (stream []) ∧
    (∃ t, exec .decode (stream []) = .next t) ∧ State.reset.cfg.Legal :=
  ⟨⟨_, rfl⟩, ⟨rfl, by decide⟩, fun h => absurd h.2 (by decide), ⟨_, rfl⟩, by decide⟩

theorem test_FrameHeaderIsRecorded_witness :
    (stream [0x81#8, 0x7F#8]).started = true ∧ (stream [0x81#8, 0x7F#8]).rxs = 0x81#8 :: 0x7F#8 :: [] ∧
    (given (.write 4 0x014#19 1#32)).cmdActive = false ∧
    (given (.write 4 0x014#19 1#32)).pending = .write 4 0x014#19 1#32 :: [] := ⟨rfl, rfl, rfl, rfl⟩

theorem test_FrameInstructionIsRecorded_witness :
    (stream [0x7F#8]).started = true ∧ (stream [0x7F#8]).rxs = 0x7F#8 :: [] := ⟨rfl, rfl⟩

/-- A payload of 0 bytes and one of 125, the ends of the short form. -/
theorem test_FrameOfAnyOpcodeIsDelivered_witness :
    State.reset.cfg.Legal ∧ (stream [lengthByte false 0]).started = true ∧
    (stream [lengthByte false 0]).rxs = lengthByte false (List.length ([] : List Byte)) :: ([] ++ []) ∧
    (List.replicate 125 0x00#8).length ≤ 125 ∧ (List.replicate 125 0x00#8).length ≤ State.reset.cfg.rxCap ∧
    (stream (lengthByte false 125 :: List.replicate 125 0x00#8)).rxs =
      lengthByte false (List.replicate 125 0x00#8).length :: (List.replicate 125 0x00#8 ++ []) := by
  refine ⟨by decide, rfl, rfl, ?_⟩
  simp [stream, State.reset, State.resetWith, Config.cfgT]

theorem test_TheTwoMaskKeysAreIndependent_witness :
    (∃ t, exec .decode (stream helloMasked) = .next t) ∧
    (∃ t, exec (.encode .text 5) (staged true 7#32 hello) = .next t) := ⟨⟨_, rfl⟩, ⟨_, rfl⟩⟩

theorem test_EncodeRefusesBeforeAnyWrite_witness :
    (queued true []).txBusy = true ∧ State.reset.txBusy = false ∧ State.reset.cfg.txCap < 301 := by decide

/-- A masked payload of 126 bytes staged, with TX_CAP = 126. -/
def longPin : State :=
  { staged true 0x01020304#32 (List.replicate 126 0x41#8) with cfg := { Config.cfgT with txCap := 126 } }

/-- A payload of TX_CAP bytes, here 126; one byte less, at the end of the short form; and payloads with a byte missing. -/
theorem test_EncodeBuildsTheFrame_witness :
    longPin.cfg.Legal ∧ longPin.txBusy = false ∧ 126 ≤ longPin.cfg.txCap ∧ Written longPin .pin 126 ∧
    Written longPin .pin 125 ∧ Written longPin .pin 0 ∧
    (State.reset.readBuf .pin 0 = none ∧ Written State.reset .pin 0 ∧ 0 < 1) ∧
    ((staged false 0 hello).readBuf .pin 5 = none ∧ Written (staged false 0 hello) .pin 5) := by
  have all : ∀ i < 126, (longPin.readBuf .pin i).isSome = true := by decide +kernel
  refine ⟨by decide, rfl, by decide, fun i hi => all i hi, fun i hi => all i (by omega), fun i hi => all i (by omega),
    ⟨rfl, fun i hi => absurd hi (by omega), by decide⟩, rfl, ?_⟩
  unfold Written
  decide

theorem test_EncodedFrameSize_witness :
    (staged true 7#32 hello).cfg.Legal ∧ (staged true 7#32 hello).txBusy = false ∧
    view (exec (.encode .text 5) (staged true 7#32 hello)) State.err = some .ok ∧
    view (exec (.encode .ping 0) State.reset) State.err = some .ok := by decide +kernel

theorem test_FlushOffersTheQueuedFrame_witness :
    (queued false []).started = false ∧ ((stream []).started = true ∧ (stream []).txBusy = false) ∧
    ((queued true []).started = true ∧ (queued true []).txBusy = true ∧ 2 ≤ (queued true []).txLen.toNat ∧
      Memory.readBytes (queued true []).txbuf 0 (queued true []).txLen.toNat = .ok helloFrame) :=
  ⟨rfl, ⟨rfl, rfl⟩, rfl, rfl, by decide, rfl⟩

theorem test_EveryTransportAnswerIsPossible_witness :
    (queued true []).started = true ∧ (queued true []).txBusy = true ∧
    Memory.readBytes (queued true []).txbuf 0 (queued true []).txLen.toNat = .ok helloFrame ∧
    0 < helloFrame.length ∧ 6 < helloFrame.length := ⟨rfl, rfl, rfl, by decide, by decide⟩

theorem test_TransmitLogOnlyGrows_witness :
    view (step { queued true [.ok] with pending := [wr32 .cmd 4#32] }) State.txs = some helloFrame := by decide +kernel

/-- Instructions that end, of each kind the two statements speak of. -/
theorem test_StreamsHaveTheirUsers_witness :
    (∃ t, exec .drain State.reset = .next t) ∧ Instr.drain ≠ .flush ∧ ¬ ReadsStream .drain := by
  refine ⟨⟨_, rfl⟩, by decide, ?_⟩
  rintro (h | ⟨op, f, r1, r2, r3, h⟩)
  · cases h
  · cases op <;> cases h

theorem test_BuffersHaveTheirWriters_witness :
    (∃ t, exec .clear (queued true []) = .next t) ∧ (∀ op len, Instr.clear ≠ .encode op len) ∧
    ¬ ReadsStream .clear ∧ (∀ n, Instr.clear ≠ .deriveKey n) := by
  refine ⟨⟨_, rfl⟩, nofun, ?_, nofun⟩
  rintro (h | ⟨op, f, r1, r2, r3, h⟩)
  · cases h
  · cases op <;> cases h

/-- A key of KEY_MAX bytes, one too long, and one with its second byte missing. -/
theorem test_DeriveKeyWritesTheAcceptKey_witness :
    State.reset.cfg.keyMax < 65 ∧
    (64 ≤ State.reset.cfg.keyMax ∧
      Memory.readBytes (Memory.writeBytes [] 0 (List.replicate 64 0x41#8)) 0 64 = .ok (List.replicate 64 0x41#8)) ∧
    (Memory.readBytes State.reset.keyin 0 0 = .ok []) ∧
    (let s := { State.reset with keyin := [(0, 0x41#8)] }
     s.readBuf .keyin 1 = none ∧ Written s .keyin 1 ∧ 1 < 2) := by
  refine ⟨by decide, ⟨by decide, by rfl⟩, rfl, rfl, ?_, by decide⟩
  unfold Written
  decide

theorem test_Sha1PaddingIsMinimal_witness :
    (([] : List Byte).length + 1 + 55) % 64 = 56 ∧ (List.replicate 19 0x41#8).length ≤ 128 ∧
    (List.replicate 128 0x41#8).length ≤ 128 := by decide

/-- Two states that agree on the key and on nothing else DERIVE_KEY could read. -/
theorem test_AcceptKeyDependsOnTheKeyAlone_witness :
    let s := { State.reset with keyin := [(0, 0x41#8)] }
    let u := { queued true [] with keyin := [(0, 0x41#8), (1, 0x42#8)], maskKey := 7 }
    s.cfg.keyMax = u.cfg.keyMax ∧ (∀ i < 1, s.readBuf .keyin i = u.readBuf .keyin i) ∧
    view (exec (.deriveKey 1) s) State.err = some .ok ∧ view (exec (.deriveKey 1) u) State.err = some .ok := by
  decide +kernel

/-- A word of each command the statements read by its CMDOP, with every ignored bit set. -/
theorem test_command_words_witness :
    cmdOp 0xFFFFFFF2#32 = 0x2#4 ∧ cmdOp 0xFFFFFFF4#32 = 0x4#4 ∧ cmdOp 0xFFFFFFF5#32 = 0x5#4 ∧
    cmdOp 0xFFFFFFF6#32 = 0x6#4 ∧ cmdOp 0xFFFFFFF7#32 = 0x7#4 := by decide

theorem test_ReservedCommandsAreBadCommands_witness :
    Instr.reservedCmd0 ∈ reservedCommands ∧ Instr.reservedCmd8 ∈ reservedCommands ∧
    Instr.reservedCmdF ∈ reservedCommands ∧ reservedCommands.length = 9 := by decide

theorem test_ResetLeavesThePowerOnValues_witness :
    (State.reset = State.resetWith Config.cfgT) ∧ (∃ u : State, (stream helloFrame).powerOn = u.powerOn) ∧
    (given .powerOn).pending = .powerOn :: [] := ⟨rfl, ⟨_, rfl⟩, rfl⟩

theorem test_ClearMatchesPowerOn_witness : Register.status ≠ .ctrl ∧ Register.maskKey ≠ .keyStage := by decide

/-- A state with a queued frame that meets the invariant of the send slot; and a stop of each command that reads a buffer, at
a byte it reads. -/
theorem test_CommandsStopOnlyAtUnwrittenBytes_witness :
    (queued true []).OutboundOk ∧
    (faultOf (exec (.encode .text 6) (staged false 0 hello)) = some (.unwritten .pin 5) ∧
      faultOf (exec (.deriveKey 1) State.reset) = some (.unwritten .keyin 0) ∧
      faultOf (exec .flush { queued true [] with txLen := 8 }) = some (.unwritten .txbuf 7)) := by
  refine ⟨⟨by decide, fun _ => by decide, fun _ => ⟨.text, false, 0, hello, by decide, rfl⟩⟩, ?_⟩
  decide +kernel

/-- The invariant holds in a state with a frame queued and an input pending, and the step goes on. -/
theorem test_EveryStepKeepsTheInvariant_witness :
    ({ queued true [.ok] with pending := [wr32 .cmd 4#32] } : State).Inv ∧
    (view (step { queued true [.ok] with pending := [wr32 .cmd 4#32] }) State.txBusy = some false) := by
  refine ⟨⟨by decide, ⟨fun b => ?_, fun b => ?_⟩, ⟨by decide, ⟨[], rfl⟩, nofun⟩,
    ⟨by decide, fun _ => by decide, fun _ => ⟨.text, false, 0, hello, by decide, rfl⟩⟩, rfl⟩, by decide +kernel⟩
  · cases b <;> decide
  · cases b <;> decide

theorem test_ResetMeetsTheInvariant_witness : Config.cfgT.Legal := by decide

/-- A masked "Hello" that one machine sends and another receives: every hypothesis of the round trip. -/
theorem test_EncodeFlushDecodeRoundTrip_witness :
    let s := { staged true 0x37FA213D#32 hello with started := true, txAnswers := [.ok] }
    ∃ s1 s2 : State, ∃ r : State, s.cfg.Legal ∧ r.cfg.Legal ∧ s.started = true ∧ s.txBusy = false ∧
      s.txAnswers = .ok :: [] ∧ s.txs = [] ∧ hello.length ≤ s.cfg.txCap ∧ hello.length ≤ r.cfg.rxCap ∧
      Memory.readBytes s.pin 0 hello.length = .ok hello ∧
      (s.maskEn = true → r.cfg.maskAvailMin ≤ 4 + hello.length + ([] : List Byte).length) ∧
      exec (.encode .text hello.length) s = .next s1 ∧ exec .flush s1 = .next s2 ∧ r.started = true ∧
      r.rxs = s2.txs ++ [] := by
  refine ⟨_, _, stream helloMasked, by decide, by decide, rfl, rfl, rfl, rfl, by decide, by decide, rfl, by decide, rfl, rfl,
    rfl, ?_⟩
  decide +kernel

end Sys2Proof.Tests
end

section
/-! PROOFS. The family of 10_state: CMD, STATUS, ERR and RX_HDR (R34, R35, R41, R44). First what one step does with each kind
of input, then what a command ignores and what it leaves, then the four statements. -/

namespace Sys2Proof.Machine

/-! ### One step, by its input -/

/-- An idle block hands the host's write to the bus (R84). -/
theorem step_write {s : State} {width : Nat} {off : Addr} {v : Word} {rest : List Event}
    (hidle : s.cmdActive = false) (hp : s.pending = .write width off v :: rest) :
    step s = hostWrite runCommand width off v { s with pending := rest } := by
  simp [step, hp, hostEvent, hidle]

/-- An idle block hands the host's read to the bus (R83). -/
theorem step_read {s : State} {width : Nat} {off : Addr} {rest : List Event}
    (hidle : s.cmdActive = false) (hp : s.pending = .read width off :: rest) :
    step s = hostRead width off { s with pending := rest } := by
  simp [step, hp, hostEvent, hidle]

/-- Power-on is taken in any state (R400). -/
theorem step_powerOn {s : State} {rest : List Event} (hp : s.pending = .powerOn :: rest) :
    step s = .next (State.powerOn { s with pending := rest }) := by
  simp [step, hp, hostEvent]

/-- A host write of STATUS reaches a read-only register (R35). -/
theorem hostWrite_status (run : Word → State → Result) (v : Word) (s : State) :
    hostWrite run 4 0x008#19 v s = .next s := rfl

/-- A host write of RX_HDR reaches a read-only register (R44). -/
theorem hostWrite_rxHdr (run : Word → State → Result) (v : Word) (s : State) :
    hostWrite run 4 0x014#19 v s = .next s := rfl

/-- A host read of CMD answers 0 (R34). -/
theorem hostRead_cmd (s : State) : hostRead 4 0x004#19 s = .next (s.answer 0) := rfl

/-- CLEAR always answers the cleared state, ended OK (R342). -/
theorem exec_clear (s : State) : exec .clear s = .next s.clear.finish := rfl

/-! ### STATUS.ERR and CMD_ACTIVE before a command do not matter to it -/

/-- The same state with another result code and CMD_ACTIVE: the two fields every command overwrites (R36, R41). -/
def State.withOutcome (c : Status) (a : Bool) (s : State) : State := { s with err := c, cmdActive := a }

/-- Ending a command overwrites both fields. -/
@[simp] theorem State.raise_withOutcome (d c : Status) (a : Bool) (s : State) :
    (s.withOutcome c a).raise d = s.raise d := rfl

/-- The payload phase overwrites both fields: each of its three endings raises a code. -/
theorem payloadPhase_withOutcome (k : Word) (len : Nat) (c : Status) (a : Bool) (s : State) :
    payloadPhase k len (s.withOutcome c a) = payloadPhase k len s := by
  rw [payloadPhase_eq, payloadPhase_eq]
  rfl

/-- The key phase overwrites both fields. -/
theorem keyPhase_withOutcome (masked : Bool) (len : Nat) (c : Status) (a : Bool) (s : State) :
    keyPhase masked len (s.withOutcome c a) = keyPhase masked len s := by
  unfold keyPhase State.withOutcome
  dsimp only
  split
  · split
    · rfl
    · split
      · rename_i k0 k1 k2 k3 rest _
        exact payloadPhase_withOutcome _ len c a { s with rxs := rest, rxMkey := packKey k0 k1 k2 k3 }
      · rfl
  · exact payloadPhase_withOutcome 0 len c a s

/-- The length phase overwrites both fields. -/
theorem lengthPhase_withOutcome (b1 : Byte) (c : Status) (a : Bool) (s : State) :
    lengthPhase b1 (s.withOutcome c a) = lengthPhase b1 s := by
  unfold lengthPhase State.withOutcome
  dsimp only
  split
  · rfl
  · split
    · split
      · rename_i e0 e1 rest _
        exact keyPhase_withOutcome _ _ c a
          { s with rxs := rest, rxDlen := BitVec.ofNat 16 (extendedLength e0 e1) }
      · rfl
    · exact keyPhase_withOutcome _ _ c a { s with rxDlen := BitVec.ofNat 16 (b1Len7 b1) }

/-- Reading a frame overwrites both fields, whatever becomes of the frame. -/
theorem receiveFrame_withOutcome (c : Status) (a : Bool) (s : State) :
    receiveFrame (s.withOutcome c a) = receiveFrame s := by
  unfold receiveFrame State.withOutcome
  dsimp only
  split
  · split
    · rename_i b0 b1 rest _
      exact lengthPhase_withOutcome b1 c a (State.retire b0 b1 { s with rxs := rest })
    · rfl
  · rfl

/-- The transport's draw neither reads nor writes the two fields. -/
theorem drawTxAnswer_withOutcome (c : Status) (a : Bool) (s : State) :
    (s.withOutcome c a).drawTxAnswer = (s.drawTxAnswer.1, s.drawTxAnswer.2.withOutcome c a) := by
  unfold State.drawTxAnswer State.withOutcome
  dsimp only
  split <;> rfl

/-- Offering a frame overwrites both fields, whatever the transport answers. -/
theorem sendFrame_withOutcome (f : List Byte) (c : Status) (a : Bool) (s : State) :
    (s.withOutcome c a).sendFrame f = s.sendFrame f := by
  simp only [State.sendFrame, State.txWrite, drawTxAnswer_withOutcome]
  cases s.drawTxAnswer.1 <;> rfl

/-- FLUSH overwrites both fields. -/
theorem execFlush_withOutcome (c : Status) (a : Bool) (s : State) :
    execFlush (s.withOutcome c a) = execFlush s := by
  simp only [execFlush, sendFrame_withOutcome, State.raise_withOutcome]
  rfl

/-- No command's outcome depends on the result code or CMD_ACTIVE it starts with (R41). -/
theorem exec_withOutcome (i : Instr) (c : Status) (a : Bool) (s : State) :
    exec i (s.withOutcome c a) = exec i s := by
  rcases instr_cases i with ⟨op, f, r1, r2, r3, rfl⟩ | hi | rfl | rfl | ⟨op, len, rfl⟩ | rfl | rfl | ⟨n, rfl⟩ | rfl
  · rw [exec_frameInstr, exec_frameInstr]
    exact congrArg _ (receiveFrame_withOutcome c a { s with rxs := headerByte f r1 r2 r3 op :: s.rxs })
  · simp only [List.mem_cons, List.not_mem_nil, or_false] at hi
    rcases hi with rfl | rfl | rfl | rfl | rfl | rfl | rfl | rfl | rfl <;> rfl
  · rw [exec_decode, exec_decode, receiveFrame_withOutcome]
  · rfl
  · rfl
  · exact execFlush_withOutcome c a s
  · rfl
  · rfl
  · rfl

/-- Every instruction that answers a next state has ended: CMD_ACTIVE is 0 (R36). -/
theorem exec_cmdActive {i : Instr} {s t : State} (h : exec i s = .next t) : t.cmdActive = false := by
  rcases exec_next h with ⟨op, f, r1, r2, r3, -, rfl⟩ | ⟨-, rfl⟩ | ⟨c, -, rfl⟩ | ⟨-, rfl⟩ | ⟨op, p, -, -, -, -, rfl⟩ |
    ⟨f, -, -, -, -, -, rfl⟩ | ⟨-, rfl⟩ | ⟨key, -, -, -, rfl⟩ | ⟨-, rfl⟩
  · exact receiveFrame_cmdActive _
  · exact receiveFrame_cmdActive s
  · rfl
  · rfl
  · rfl
  · exact sendFrame_cmdActive f s
  · rfl
  · rfl
  · rfl

/-- A step that is neither a command nor power-on leaves ERR (R41). -/
theorem step_err {s t : State} (h : step s = .next t) (hcmd : ∀ i, ¬ Claims.NextIsCommand s i)
    (hpow : ¬ Claims.NextIsPowerOn s) : t.err = s.err := by
  rcases step_cases h with ⟨-, rfl⟩ | ⟨e, rest, hp, ⟨w, off, v, -, rfl⟩ | ⟨w, off, v, rfl, -, hw⟩ | ⟨bs, -, rfl⟩ |
    ⟨rfl, -⟩⟩
  · rfl
  · rfl
  · rcases hw with rfl | rfl | ⟨-, -, rfl⟩ | ⟨j, b, -, rfl⟩ | ⟨j, b, -, rfl⟩ | ⟨rfl, rfl, -⟩
    · rfl
    · rfl
    · rfl
    · rfl
    · rfl
    · exact (hcmd _ ⟨v, rest, hp, rfl⟩).elim
  · rfl
  · exact (hpow ⟨rest, hp⟩).elim

/-! ### RX_HDR once the header is read -/

/-- The payload phase leaves RX_HDR. -/
@[simp] theorem payloadPhase_rxHdr (k : Word) (len : Nat) (s : State) :
    (payloadPhase k len s).rxHdr = s.rxHdr := by
  rw [payloadPhase_eq]
  dsimp only
  split
  · rfl
  · split <;> rfl

/-- The key phase leaves RX_HDR. -/
@[simp] theorem keyPhase_rxHdr (masked : Bool) (len : Nat) (s : State) :
    (keyPhase masked len s).rxHdr = s.rxHdr := by
  unfold keyPhase
  split
  · split
    · rfl
    · split
      · exact payloadPhase_rxHdr _ _ _
      · rfl
  · exact payloadPhase_rxHdr _ _ _

/-- The length phase leaves RX_HDR. -/
@[simp] theorem lengthPhase_rxHdr (b1 : Byte) (s : State) : (lengthPhase b1 s).rxHdr = s.rxHdr := by
  unfold lengthPhase
  split
  · rfl
  · split
    · split
      · exact keyPhase_rxHdr _ _ _
      · rfl
    · exact keyPhase_rxHdr _ _ _

/-- A frame read past the gate leaves its two header bytes in RX_HDR, whatever becomes of it (R44, R202). -/
theorem receiveFrame_rxHdr {s : State} {b0 b1 : Byte} {rest : List Byte} (hst : s.started = true)
    (hrxs : s.rxs = b0 :: b1 :: rest) : (receiveFrame s).rxHdr = bigEndian16 b0 b1 := by
  simp [receiveFrame, hst, hrxs]

/-- The more significant byte of a 16-bit value. -/
@[simp] theorem bigEndian16_high (a b : Byte) : (bigEndian16 a b).extractLsb' 8 8 = a := by
  apply BitVec.eq_of_getLsbD_eq
  intro i hi
  have h8 : 8 + i < 16 := by omega
  simp [bigEndian16, hi, h8]

/-- The less significant byte of a 16-bit value. -/
@[simp] theorem bigEndian16_low (a b : Byte) : (bigEndian16 a b).extractLsb' 0 8 = b := by
  apply BitVec.eq_of_getLsbD_eq
  intro i hi
  have h16 : i < 16 := by omega
  simp [bigEndian16, hi, h16]

/-- The named fields of RX_HDR are those of its two bytes (R44). -/
theorem State.rxHdr_fields (s : State) :
    let b0 := s.rxHdr.extractLsb' 8 8
    let b1 := s.rxHdr.extractLsb' 0 8
    s.rxFin = b0.getLsbD 7 ∧ s.rxRsv1 = b0.getLsbD 6 ∧ s.rxRsv2 = b0.getLsbD 5 ∧ s.rxRsv3 = b0.getLsbD 4 ∧
      s.rxOpcode.bits = b0.extractLsb' 0 4 ∧ s.rxMasked = b1.getLsbD 7 ∧ s.rxLen7 = (b1.extractLsb' 0 7).toNat := by
  refine ⟨?_, ?_, ?_, ?_, ?_, ?_, ?_⟩
  · simp [State.rxFin]
  · simp [State.rxRsv1]
  · simp [State.rxRsv2]
  · simp [State.rxRsv3]
  · rw [State.rxOpcode, FrameOpcode.bits_ofBits]
    apply BitVec.eq_of_getLsbD_eq
    intro i hi
    have h8 : i < 8 := by omega
    simp [hi, h8]
  · simp [State.rxMasked]
  · simp [State.rxLen7, BitVec.extractLsb'_extractLsb'_of_le]

/-- RX_HDR as the host reads it (R44): the two header bytes, and zeros above them. -/
theorem State.readRegister_rxHdr (s : State) :
    (s.readRegister .rxHdr).extractLsb' 0 16 = s.rxHdr ∧ (s.readRegister .rxHdr).extractLsb' 16 16 = 0#16 := by
  constructor
  · apply BitVec.eq_of_getLsbD_eq
    intro i hi
    have h32 : i < 32 := by omega
    simp [State.readRegister, hi, h32]
  · apply BitVec.eq_of_getLsbD_eq
    intro i hi
    simp [State.readRegister]

/-! ### STATUS as a word -/

/-- STATUS bit by bit (R35): the five flags, three reserved bits, the result code, and zeros above it. -/
theorem State.statusWord_getLsbD (s : State) (i : Nat) :
    s.statusWord.getLsbD i =
      if i < 5 then [s.cmdActive, s.txBusy, s.rxValid, s.maskFresh, s.refreshDue].getD i false
      else if i < 8 then false else s.err.code.getLsbD (i - 8) := by
  change BitVec.getLsbD (w := 20 + 4 + 3 + 1 + 1 + 1 + 1 + 1) (_ ++ _) i = _
  simp only [BitVec.getLsbD_append]
  obtain hflag | ⟨j, rfl⟩ : i < 5 ∨ ∃ j, i = j + 5 := by
    by_cases h : i < 5
    · exact .inl h
    · exact .inr ⟨i - 5, by omega⟩
  · interval_cases i <;> simp
  · have hreserved : j + 5 < 8 ↔ j < 3 := by omega
    by_cases hcode : j - 3 < 4
    · simp [hcode, hreserved]
    · have hzero : s.err.code.getLsbD (j - 3) = false := BitVec.getLsbD_of_ge _ _ (by omega)
      simp [hzero]

/-- The code in bits 11:8 of STATUS (R35, R41). -/
theorem State.statusWord_err (s : State) : s.statusWord.extractLsb' 8 4 = s.err.code := by
  apply BitVec.eq_of_getLsbD_eq
  intro i hi
  rw [BitVec.getLsbD_extractLsb', State.statusWord_getLsbD, if_neg (by omega), if_neg (by omega)]
  simp [hi]

/-- The reserved bits 7:5 and 31:12 of STATUS read 0 (R35). -/
theorem State.statusWord_reserved (s : State) :
    s.statusWord.extractLsb' 5 3 = 0#3 ∧ s.statusWord.extractLsb' 12 20 = 0#20 := by
  constructor
  · apply BitVec.eq_of_getLsbD_eq
    intro i hi
    rw [BitVec.getLsbD_extractLsb', State.statusWord_getLsbD, if_neg (by omega), if_pos (by omega)]
    simp
  · apply BitVec.eq_of_getLsbD_eq
    intro i hi
    rw [BitVec.getLsbD_extractLsb', State.statusWord_getLsbD, if_neg (by omega), if_neg (by omega),
      BitVec.getLsbD_of_ge _ _ (by omega)]
    simp

/-- With every stored flag 0 and the result OK, only REFRESH_DUE is set (R35, R40). -/
theorem State.statusWord_idle {s : State} (hactive : s.cmdActive = false) (hbusy : s.txBusy = false)
    (hvalid : s.rxValid = false) (hfresh : s.maskFresh = false) (herr : s.err = .ok) :
    s.statusWord = 0x00000010#32 := by
  rw [State.statusWord, State.refreshDue, hactive, hbusy, hvalid, hfresh, herr]
  rfl

end Sys2Proof.Machine

namespace Sys2Proof.Proofs

open Sys2Proof.Machine

/-- Settles O15: the fields are read off STATUS bit by bit; a write reaches a read-only register; both resets leave all flags
but REFRESH_DUE 0 and the code 0. -/
theorem statusWordHasItsFields : Obligations.StatusWordHasItsFields := by
  unfold Obligations.StatusWordHasItsFields
  intro s
  obtain ⟨hlow, hhigh⟩ := s.statusWord_reserved
  have bit := s.statusWord_getLsbD
  refine ⟨⟨bit 0, bit 1, bit 2, bit 3, bit 4, hlow, s.statusWord_err, hhigh⟩, ?_, ?_, ?_⟩
  · intro v rest hidle hp
    rw [step_write hidle hp, hostWrite_status]
  · intro rest hp
    exact ⟨_, step_powerOn hp, State.statusWord_idle rfl rfl rfl rfl rfl⟩
  · exact ⟨_, exec_clear s, State.statusWord_idle rfl rfl rfl rfl rfl⟩

/-- Settles O18: no command reads ERR or CMD_ACTIVE (`exec_withOutcome`), every command ends with CMD_ACTIVE = 0, and the other
inputs leave ERR (`step_err`). -/
theorem errIsTheLastCommandsCode : Obligations.ErrIsTheLastCommandsCode := by
  unfold Obligations.ErrIsTheLastCommandsCode
  refine ⟨fun i s t h => ⟨exec_cmdActive h, fun c a => ?_⟩, fun s t => step_err, fun s => ⟨rfl, ?_, s.statusWord_err⟩, rfl⟩
  · exact (exec_withOutcome i c a s).trans h
  · exact ⟨_, exec_clear s, rfl⟩

/-- Settles O33: past the gate no phase of DECODE writes RX_HDR again (`receiveFrame_rxHdr`), so the two header bytes stay in
it, and the named fields are theirs. -/
theorem frameHeaderIsRecorded : Obligations.FrameHeaderIsRecorded := by
  unfold Obligations.FrameHeaderIsRecorded
  refine ⟨fun s b0 b1 rest hst hrxs => ?_, fun s => ⟨s.readRegister_rxHdr.1, s.readRegister_rxHdr.2, rfl,
    ⟨_, exec_clear s, rfl⟩, fun v rest hidle hp => ?_⟩⟩
  · have hdr := receiveFrame_rxHdr hst hrxs
    have fields := (receiveFrame s).rxHdr_fields
    rw [hdr, bigEndian16_high, bigEndian16_low] at fields
    exact ⟨_, exec_decode s, by rw [hdr, bigEndian16_high], by rw [hdr, bigEndian16_low], fields⟩
  · rw [step_write hidle hp, hostWrite_rxHdr]

/-- Settles O4: the bus hands the word to `runCommand`, and every command ends with CMD_ACTIVE = 0. -/
theorem cmdWriteRunsTheCommand : Obligations.CmdWriteRunsTheCommand := by
  unfold Obligations.CmdWriteRunsTheCommand
  intro s rest w hidle
  refine ⟨fun hp => ?_, fun hp => ?_⟩
  · have hrun : step s = exec (decodeCommand w) { s with pending := rest, cmdActive := true } := by
      rw [step_write hidle hp, hostWrite_cmd]
      rfl
    exact ⟨hrun, fun t ht => exec_cmdActive (hrun.symm.trans ht)⟩
  · rw [step_read hidle hp, hostRead_cmd]
    rfl

end Sys2Proof.Proofs
end

section
/-! PROOFS. The family of 20_memory: the host window and the peer (R81 to R87, R93). First one step of each input, then the
address map, read both ways: which target an offset has, and which offset a target has; then what a write does to the
buffers, then the five statements. -/

namespace Sys2Proof.Machine

open Sys2Proof.Claims

/-! ### One step, by its input -/

/-- A peer append is taken in any state (R93). -/
theorem step_peer {s : State} {bs : List Byte} {rest : List Event} (hp : s.pending = .peer bs :: rest) :
    step s = .next (State.peerAppend bs { s with pending := rest }) := by
  simp [step, hp, hostEvent]

/-- A host write that answers a next state found the block idle, and is what the bus did (R84, 70_reset R420). -/
theorem hostWrite_of_step {s t : State} {width : Nat} {off : Addr} {v : Word} {rest : List Event}
    (hp : s.pending = .write width off v :: rest) (h : step s = .next t) :
    hostWrite runCommand width off v { s with pending := rest } = .next t := by
  have hidle : s.cmdActive = false := by
    by_contra hactive
    simp [step, hp, hostEvent, Bool.eq_true_of_not_eq_false hactive] at h
  exact (step_write hidle hp).symm.trans h

/-! ### The register space -/

/-- The offset of a register (10_state R32). -/
def Register.offset : Register → Nat
  | .ctrl => 0x000
  | .cmd => 0x004
  | .status => 0x008
  | .maskKey => 0x00C
  | .keyStage => 0x010
  | .rxHdr => 0x014
  | .rxDlen => 0x018
  | .rxLen => 0x01C
  | .rxMkey => 0x020
  | .txLen => 0x024

/-- Each register is found at its own offset. -/
@[simp] theorem registerAt_offset (r : Register) : registerAt r.offset = some r := by
  cases r <;> rfl

/-- A register is found at its own offset alone. -/
theorem eq_offset_of_registerAt {a : Nat} {r : Register} (h : registerAt a = some r) : a = r.offset := by
  unfold registerAt at h
  repeat' split at h
  all_goals cases h <;> assumption

/-- An offset where no register is found is no register's. -/
theorem ne_offset_of_registerAt {a : Nat} (h : registerAt a = none) (r : Register) : a ≠ r.offset := by
  rintro rfl
  cases (registerAt_offset r).symm.trans h

/-- Below 0x100 the map is the register space (R81). -/
theorem target_registerSpace (c : Config) (width : Nat) {off : Addr} (hlt : off.toNat < 0x100) :
    target c width off = registerSpace width off.toNat := if_pos hlt

/-- An aligned 4-byte access at a register's offset reaches that register (R81, R82). -/
theorem target_eq_register {c : Config} {off : Addr} {r : Register} (hlt : off.toNat < 0x100)
    (hal : off.toNat % 4 = 0) (h : registerAt off.toNat = some r) : target c 4 off = .register r := by
  rw [target_registerSpace c 4 hlt, registerSpace, if_pos ⟨rfl, hal⟩, h]

/-- An aligned 4-byte access of the register space where no register is reaches nothing (R81, R82). -/
theorem target_eq_reserved {c : Config} {off : Addr} (hlt : off.toNat < 0x100)
    (hal : off.toNat % 4 = 0) (h : registerAt off.toNat = none) : target c 4 off = .reserved := by
  rw [target_registerSpace c 4 hlt, registerSpace, if_pos ⟨rfl, hal⟩, h]

/-- The statements' table of register values agrees with the model's (R83). -/
theorem registerValue_offset (s : State) (r : Register) : registerValue s r.offset = s.readRegister r := by
  cases r <;> rfl

/-- Where no register is, the statements' table has 0 (R83). -/
theorem registerValue_of_registerAt {a : Nat} (s : State) (h : registerAt a = none) : registerValue s a = 0 := by
  unfold registerValue
  repeat rw [if_neg (by rintro rfl; cases h)]

/-- A legal read of the register space answers the table's value (R83). -/
theorem hostRead_registerSpace {s : State} {off : Addr} (hlt : off.toNat < 0x100) (hal : off.toNat % 4 = 0) :
    hostRead 4 off s = .next (s.answer (registerValue s off.toNat)) := by
  cases hreg : registerAt off.toNat with
  | none => rw [hostRead_reserved (target_eq_reserved hlt hal hreg), registerValue_of_registerAt s hreg]
  | some r => rw [hostRead, target_eq_register hlt hal hreg, eq_offset_of_registerAt hreg, registerValue_offset]

/-! ### The buffer windows -/

/-- The size of a buffer's window (R81). -/
def windowSize : Buffer → Nat
  | .keyin => 0x80
  | .accept => 0x1C
  | .pin => 0x10000
  | .txbuf => 0x20000
  | .rxbuf => 0x10000

/-- With legal parameters every buffer fits its window (00_scope R8). -/
theorem bufferCapacity_le_windowSize {c : Config} (hc : c.Legal) (b : Buffer) : bufferCapacity c b ≤ windowSize b := by
  obtain ⟨⟨-, hrx⟩, htx, ⟨-, hkey⟩, -⟩ := hc
  cases b <;> simp only [bufferCapacity, windowSize] <;> omega

/-- Within a buffer's window the map is that window (R81). -/
theorem target_bufferWindow (c : Config) (width : Nat) {off : Addr} {b : Buffer} {i : Nat} (hi : i < windowSize b)
    (hoff : off.toNat = windowStart b + i) : target c width off = bufferWindow c b width i := by
  cases b <;> simp only [windowSize] at hi <;>
    simp (disch := omega) only [target, hoff, windowStart, if_pos, if_neg, Nat.add_sub_cancel_left]

/-- A byte access within a buffer's capacity reaches that byte (R81, R82). -/
theorem target_eq_byte {c : Config} {off : Addr} {b : Buffer} {i : Nat} (hc : c.Legal) (hi : i < bufferCapacity c b)
    (hoff : off.toNat = windowStart b + i) : target c 1 off = .byte b i := by
  rw [target_bufferWindow c 1 (hi.trans_le (bufferCapacity_le_windowSize hc b)) hoff, bufferWindow, if_pos rfl, if_pos hi]

/-- The map has three kinds of region: the register space, the buffer windows and the reserved ranges (R81). -/
theorem target_cases (c : Config) (width : Nat) (off : Addr) :
    target c width off = registerSpace width off.toNat ∨
    (∃ b i, off.toNat = windowStart b + i ∧ target c width off = bufferWindow c b width i) ∨
    target c width off = reservedRange width off.toNat := by
  have window (b : Buffer) (h : ¬ off.toNat < windowStart b) : ∃ b' i, off.toNat = windowStart b' + i ∧
      bufferWindow c b width (off.toNat - windowStart b) = bufferWindow c b' width i :=
    ⟨b, _, (Nat.add_sub_of_le (not_lt.1 h)).symm, rfl⟩
  unfold target
  dsimp only
  split_ifs with hreg hkeyin _ hlow _ hmid htxbuf
  · exact .inl rfl
  · exact .inr (.inl (window .keyin hreg))
  · exact .inr (.inl (window .accept hkeyin))
  · exact .inr (.inr rfl)
  · exact .inr (.inl (window .pin hlow))
  · exact .inr (.inr rfl)
  · exact .inr (.inl (window .txbuf hmid))
  · exact .inr (.inl (window .rxbuf htxbuf))
  · exact .inr (.inr rfl)

/-- Only a byte access of a window reaches a byte, and it is the one at its own index (R81, R82). -/
theorem bufferWindow_eq_byte {c : Config} {b b' : Buffer} {width a i : Nat}
    (h : bufferWindow c b' width a = .byte b i) : width = 1 ∧ b' = b ∧ a = i := by
  unfold bufferWindow at h
  split at h
  · rename_i hw
    split at h
    · cases h
      exact ⟨hw, rfl, rfl⟩
    · cases h
  · cases h

/-- The register space holds no buffer byte (R81). -/
theorem registerSpace_ne_byte (width a : Nat) (b : Buffer) (i : Nat) : registerSpace width a ≠ .byte b i := by
  unfold registerSpace
  split
  · split <;> nofun
  · nofun

/-- A reserved range holds no buffer byte (R81). -/
theorem reservedRange_ne_byte (width a : Nat) (b : Buffer) (i : Nat) : reservedRange width a ≠ .byte b i := by
  unfold reservedRange
  split <;> nofun

/-- A byte is reached by a 1-byte access at its own offset alone (R81, R82). -/
theorem eq_windowStart_of_target {c : Config} {width : Nat} {off : Addr} {b : Buffer} {i : Nat}
    (h : target c width off = .byte b i) : width = 1 ∧ off.toNat = windowStart b + i := by
  obtain hr | ⟨b', a, hoff, hw⟩ | hr := target_cases c width off
  · exact (registerSpace_ne_byte _ _ _ _ (hr.symm.trans h)).elim
  · obtain ⟨rfl, rfl, rfl⟩ := bufferWindow_eq_byte (hw.symm.trans h)
    exact ⟨rfl, hoff⟩
  · exact (reservedRange_ne_byte _ _ _ _ (hr.symm.trans h)).elim

/-! ### Writes and the buffers -/

/-- A write within a window changes the host-writable buffers alone (R87). -/
theorem State.writeWindow_frame (b : Buffer) (i : Nat) (v : Byte) (s : State) :
    s.writeWindow b i v = { s with keyin := (s.writeWindow b i v).keyin, pin := (s.writeWindow b i v).pin } := by
  cases b <;> rfl

/-- A write within KEYIN or PIN writes that buffer; every other buffer, and every buffer where the window is another's,
stays (R87). -/
theorem State.buffer_writeWindow (b b' : Buffer) (i : Nat) (v : Byte) (s : State) :
    (s.writeWindow b i v).buffer b' =
      if b' = b ∧ (b = .keyin ∨ b = .pin) then Memory.write (s.buffer b') i v else s.buffer b' := by
  cases b <;> cases b' <;> rfl

/-- A read after a write within a window (R87, R88). -/
theorem State.readBuf_writeWindow (b b' : Buffer) (i j : Nat) (v : Byte) (s : State) :
    (s.writeWindow b i v).readBuf b' j =
      if b' = b ∧ j = i ∧ (b = .keyin ∨ b = .pin) then some v else s.readBuf b' j := by
  rw [State.readBuf, State.buffer_writeWindow]
  split
  · rename_i h
    rw [Memory.read_write]
    simp [h, State.readBuf]
  · rename_i h
    rw [if_neg fun hall => h ⟨hall.1, hall.2.2⟩, State.readBuf]

/-- A write of a register other than CMD leaves the buffers (R84). -/
theorem writeRegister_buffer {run : Word → State → Result} {r : Register} {v : Word} {s t : State} (hr : r ≠ .cmd)
    (h : writeRegister run r v s = .next t) (b : Buffer) : t.buffer b = s.buffer b := by
  cases r
  case cmd => exact (hr rfl).elim
  all_goals (cases h; cases b <;> rfl)

/-- A host write that is neither one of CMD nor one within KEYIN or PIN leaves the buffers (R87). -/
theorem hostWrite_buffer {run : Word → State → Result} {width : Nat} {off : Addr} {v : Word} {s t : State}
    (h : hostWrite run width off v s = .next t) (hcmd : ¬ (width = 4 ∧ off = 0x004#19))
    (hwin : ∀ b i, (b = .keyin ∨ b = .pin) → target s.cfg width off ≠ .byte b i) (b : Buffer) :
    t.buffer b = s.buffer b := by
  unfold hostWrite at h
  split at h
  · rename_i r htarget
    obtain ⟨hw, -, -, hreg⟩ := target_register htarget
    refine writeRegister_buffer ?_ h b
    rintro rfl
    exact hcmd ⟨hw, BitVec.eq_of_toNat_eq (registerAt_cmd.1 hreg)⟩
  · cases h
    rfl
  · rename_i b' i htarget
    cases h
    rw [State.buffer_writeWindow, if_neg fun hb => hwin b' i hb.2 htarget]
  · cases h

end Sys2Proof.Machine

namespace Sys2Proof.Proofs

open Sys2Proof.Machine

/-- Settles O10: an aligned offset below 0x100 is a register's, whose value the bus answers, or reserved, which reads 0. -/
theorem registerReadAnswersTheRegister : Obligations.RegisterReadAnswersTheRegister := by
  unfold Obligations.RegisterReadAnswersTheRegister
  intro s rest off hidle hlt hal hp
  rw [step_read hidle hp, hostRead_registerSpace hlt hal]
  rfl

/-- Settles O11: an aligned offset below 0x100 is a register's, of which CTRL, CMD and KEY_STAGE alone act on a write, or
reserved, where the write is ignored. -/
theorem registerWriteStoresOrRuns : Obligations.RegisterWriteStoresOrRuns := by
  unfold Obligations.RegisterWriteStoresOrRuns
  intro s rest off v hidle hlt hal hp
  rw [step_write hidle hp]
  cases hreg : registerAt off.toNat with
  | none =>
    have hctrl : off.toNat ≠ 0x000 := ne_offset_of_registerAt hreg .ctrl
    have hcmd : off.toNat ≠ 0x004 := ne_offset_of_registerAt hreg .cmd
    have hstage : off.toNat ≠ 0x010 := ne_offset_of_registerAt hreg .keyStage
    rw [hostWrite_reserved (target_eq_reserved hlt hal hreg), if_neg hctrl, if_neg hcmd, if_neg hstage]
  | some r =>
    rw [hostWrite, target_eq_register hlt hal hreg, eq_offset_of_registerAt hreg]
    cases r <;> rfl

/-- Settles O12: within its capacity a window's offset is the buffer's byte (`target_eq_byte`), which is answered or, where
unwritten, the fault. -/
theorem bufferReadAnswersTheByte : Obligations.BufferReadAnswersTheByte := by
  unfold Obligations.BufferReadAnswersTheByte
  intro s rest b i off hc hidle hi hoff hp
  rw [step_read hidle hp, hostRead, target_eq_byte hc hi hoff]
  rfl

/-- Settles O13: a write within a window is `State.writeWindow` of the offset's byte, and no other host write but a
command's reaches a buffer (`hostWrite_buffer`). -/
theorem bufferWriteSetsTheByte : Obligations.BufferWriteSetsTheByte := by
  unfold Obligations.BufferWriteSetsTheByte
  constructor
  · intro s rest b i off v hc hidle hi hoff hp
    refine ⟨State.writeWindow b i (v.setWidth 8) { s with pending := rest }, ?_, fun b' j => ?_, ?_⟩
    · rw [step_write hidle hp, hostWrite, target_eq_byte hc hi hoff]
    · exact State.readBuf_writeWindow b b' i j (v.setWidth 8) { s with pending := rest }
    · exact State.writeWindow_frame b i (v.setWidth 8) { s with pending := rest }
  · intro s t rest width off v hp h hcmd hwin
    refine hostWrite_buffer (s := { s with pending := rest }) (hostWrite_of_step hp h) hcmd
      fun b i hb htarget => hwin ?_
    obtain ⟨hw, hoff⟩ := eq_windowStart_of_target htarget
    exact ⟨hw, b, i, hb, target_byte htarget, hoff⟩

/-- Settles O7: a peer step is `State.peerAppend`, taken in any state. -/
theorem peerAppendsAtTheEnd : Obligations.PeerAppendsAtTheEnd := by
  unfold Obligations.PeerAppendsAtTheEnd
  intro s bs rest hp
  exact step_peer hp

end Sys2Proof.Proofs
end

section
/-! PROOFS. The family of 30_encoding: the bits of a command word that do not matter (R131, R133). First which words name a
reserved command and what one does, then the fields the decoder reads, then the statement. -/

namespace Sys2Proof.Machine

open Sys2Proof.Claims

/-- A word names a reserved command exactly where its CMDOP is 0x0 or 0x8 to 0xF (R131). -/
theorem decodeCommand_mem_reservedCommands (w : Word) :
    decodeCommand w ∈ reservedCommands ↔ cmdOp w = 0x0#4 ∨ 0x8#4 ≤ cmdOp w := by
  unfold decodeCommand
  repeat
    refine iteInduction (motive := fun i => i ∈ reservedCommands ↔ cmdOp w = 0x0#4 ∨ 0x8#4 ≤ cmdOp w)
      (fun hop => by simp [hop, reservedCommands]) (fun _ => ?_)
  have hreserved : Instr.reservedCmdF ∈ reservedCommands := by decide
  have hop : 0x8#4 ≤ cmdOp w := by bv_omega
  exact iff_of_true hreserved (.inr hop)

/-- Every reserved command ends with BadCommand (R345). -/
theorem exec_of_mem_reservedCommands {i : Instr} (hi : i ∈ reservedCommands) (s : State) :
    exec i s = .next (s.raise .badCommand) := by
  simp only [reservedCommands, List.mem_cons, List.not_mem_nil, or_false] at hi
  rcases hi with rfl | rfl | rfl | rfl | rfl | rfl | rfl | rfl | rfl <;> rfl

/-- The decoder reads CMDOP, and of the operand fields only those the command has: FOPC and ARG of ENCODE, ARG of
DERIVE_KEY (R131, R133). -/
theorem decodeCommand_congr {w v : Word} (hop : cmdOp w = cmdOp v) (hfopc : cmdOp w = 0x3#4 → cmdFopc w = cmdFopc v)
    (harg : cmdOp w = 0x3#4 ∨ cmdOp w = 0x6#4 → cmdArg w = cmdArg v) : decodeCommand w = decodeCommand v := by
  unfold decodeCommand
  rw [← hop]
  by_cases hencode : cmdOp w = 0x3#4
  · rw [hfopc hencode, harg (.inl hencode)]
  · by_cases hderive : cmdOp w = 0x6#4
    · simp only [harg (.inr hderive), if_neg hencode]
    · simp only [if_neg hencode, if_neg hderive]

end Sys2Proof.Machine

namespace Sys2Proof.Proofs

open Sys2Proof.Machine

/-- Settles O2: a reserved CMDOP names a reserved command, which ends with BadCommand alone; words that agree on the fields
the decoder reads are the same instruction (`decodeCommand_congr`). -/
theorem ignoredCommandBitsDoNotMatter : Obligations.IgnoredCommandBitsDoNotMatter := by
  unfold Obligations.IgnoredCommandBitsDoNotMatter
  constructor
  · intro w s hop
    exact exec_of_mem_reservedCommands ((decodeCommand_mem_reservedCommands w).2 hop) s
  · intro w v hop hfopc harg s
    rw [decodeCommand_congr hop hfopc harg]

end Sys2Proof.Proofs
end

section
/-! PROOFS. The family of 40_mask_xor: SET_MASK_KEY (R173). First the words of a command without operands, then what the
command answers and what MASK_FRESH says of REFRESH_DUE, then the statement. -/

namespace Sys2Proof.Machine

/-- Of a word that names neither ENCODE nor DERIVE_KEY the decoder reads CMDOP alone (R131, R133). -/
theorem decodeCommand_eq_of_no_operands {w : Word} (hencode : cmdOp w ≠ 0x3#4) (hderive : cmdOp w ≠ 0x6#4) :
    decodeCommand w = decodeCommand ((cmdOp w).setWidth 32) := by
  have hop : cmdOp w = cmdOp ((cmdOp w).setWidth 32) := by
    apply BitVec.eq_of_getLsbD_eq
    intro i hi
    have h32 : i < 32 := by omega
    simp [cmdOp, hi, h32]
  exact decodeCommand_congr hop (fun h => absurd h hencode) (fun h => absurd h (not_or.2 ⟨hencode, hderive⟩))

/-- SET_MASK_KEY always installs the staged key and ends OK (R173). -/
theorem exec_setMaskKey (s : State) :
    exec .setMaskKey s = .next ({ s with maskKey := s.keyStage, maskFresh := true } : State).finish := rfl

/-- With a fresh key no refresh is due, whether or not a send is queued (R40). -/
theorem State.refreshDue_of_maskFresh {s : State} (hfresh : s.maskFresh = true) : s.refreshDue = false := by
  rw [State.refreshDue, hfresh, Bool.not_true, Bool.and_false]

end Sys2Proof.Machine

namespace Sys2Proof.Proofs

open Sys2Proof.Machine

/-- Settles O21: CMDOP 0x5 has no operands, so its words decode as 0x00000005 does; the command sets MASK_FRESH, and
REFRESH_DUE is 0 with it. -/
theorem setMaskKeyInstallsTheStagedKey : Obligations.SetMaskKeyInstallsTheStagedKey := by
  unfold Obligations.SetMaskKeyInstallsTheStagedKey
  refine ⟨fun w hop => ?_, fun s => ⟨_, exec_setMaskKey s, State.refreshDue_of_maskFresh rfl, rfl⟩⟩
  rw [decodeCommand_eq_of_no_operands (by simp [hop]) (by simp [hop]), hop]
  rfl

end Sys2Proof.Proofs
end

section
/-! PROOFS. The family of 41_decode: the phases of DECODE and DRAIN (R201 to R212, R220). First the bytes of the stream, then
what each phase leaves in terms of the stream DECODE starts with, then the fields of a frame whose payload is read, then the
nine statements. -/

namespace Sys2Proof.Machine

open Sys2Proof.Claims

/-! ### The bytes at the front of the stream -/

/-- Where the mask key of the frame at the front begins, or its payload if it is unmasked: after the length fields (R124). -/
def keyOffset (s : State) : Nat := 2 + (if b1Len7 (streamByte s 1) = 126 then 2 else 0)

/-- The header ends after the key, if there is one (R124, R125). -/
theorem frontHeader_eq (s : State) :
    frontHeader s = keyOffset s + (if b1Masked (streamByte s 1) then 4 else 0) := rfl

/-- A masked frame's header is four bytes longer than its length fields. -/
theorem frontHeader_of_masked {s : State} (hm : b1Masked (streamByte s 1) = true) :
    frontHeader s = keyOffset s + 4 := by
  rw [frontHeader_eq, if_pos hm]

/-- An unmasked frame's header ends with its length fields. -/
theorem frontHeader_of_unmasked {s : State} (hm : b1Masked (streamByte s 1) = false) :
    frontHeader s = keyOffset s := by
  rw [frontHeader_eq, hm]
  rfl

/-- LEN7 is a field of seven bits. -/
theorem b1Len7_lt (b1 : Byte) : b1Len7 b1 < 128 := (b1.extractLsb' 0 7).isLt

/-- A declared length fits the 16 bits of RX_DLEN (R45, R126). -/
theorem declaredLength_lt (s : State) : declaredLength s < 65536 := by
  have h0 := (streamByte s 2).isLt
  have h1 := (streamByte s 3).isLt
  have h7 := b1Len7_lt (streamByte s 1)
  unfold declaredLength
  split <;> omega

/-- Byte `j` of the stream past its first `i`. -/
theorem getElem?_drop_rxs {s : State} {i j : Nat} (h : i + j < s.rxs.length) :
    (s.rxs.drop i)[j]? = some (streamByte s (i + j)) := by
  rw [List.getElem?_drop, streamByte, List.getD_eq_getElem?_getD, List.getElem?_eq_getElem h, Option.getD_some]

/-- The stream past its first `i` bytes begins with byte `i`. -/
theorem drop_rxs_eq_cons {s : State} {i : Nat} (h : i < s.rxs.length) :
    s.rxs.drop i = streamByte s i :: s.rxs.drop (i + 1) := by
  rw [List.drop_eq_getElem_cons h, streamByte, List.getD_eq_getElem?_getD, List.getElem?_eq_getElem h, Option.getD_some]

/-! ### The phases before the payload -/

/-- The state after the header phase (R202). -/
def headerTaken (s : State) : State :=
  State.retire (streamByte s 0) (streamByte s 1) { s with rxs := s.rxs.drop 2 }

/-- The state after the length phase (R204). -/
def lengthTaken (s : State) : State :=
  { headerTaken s with rxs := s.rxs.drop (keyOffset s), rxDlen := BitVec.ofNat 16 (declaredLength s) }

/-- The state after the key phase (R206). -/
def keyTaken (s : State) : State :=
  { lengthTaken s with rxs := s.rxs.drop (frontHeader s), rxMkey := frontKey s }

/-- How many bytes are left after the header phase. -/
theorem headerTaken_rxs_length (s : State) : (headerTaken s).rxs.length = s.rxs.length - 2 := List.length_drop

/-- How many bytes are left after the length phase: the count A that the key phase compares (R205). -/
theorem lengthTaken_rxs_length (s : State) : (lengthTaken s).rxs.length = s.rxs.length - keyOffset s := List.length_drop

/-- How many bytes are left after the key phase: the payload bytes there, and what follows them. -/
theorem keyTaken_rxs_length (s : State) : (keyTaken s).rxs.length = s.rxs.length - frontHeader s := List.length_drop

/-- The gate refuses a connection that is not started (R201). -/
theorem receiveFrame_notStarted {s : State} (hst : s.started = false) :
    receiveFrame s = s.raise .connectionNotStarted := by
  rw [receiveFrame, hst]
  rfl

/-- The gate refuses a stream of fewer than two bytes (R201). -/
theorem receiveFrame_idle {s : State} (hst : s.started = true) (hlen : s.rxs.length < 2) :
    receiveFrame s = s.raise .idle := by
  unfold receiveFrame
  rw [if_pos hst]
  split
  · next h => simp [h] at hlen
  · rfl

/-- Past the gate the length phase follows (R201, R202). -/
theorem receiveFrame_headerRead {s : State} (hr : HeaderRead s) :
    receiveFrame s = lengthPhase (streamByte s 1) (headerTaken s) := by
  obtain ⟨hst, hlen⟩ := hr
  have hrxs : s.rxs = streamByte s 0 :: streamByte s 1 :: s.rxs.drop 2 := by
    rw [← drop_rxs_eq_cons (by omega), ← drop_rxs_eq_cons (by omega), List.drop_zero]
  unfold receiveFrame
  rw [if_pos hst]
  split
  · next b0 b1 rest h =>
    obtain ⟨rfl, rfl, rfl⟩ : b0 = streamByte s 0 ∧ b1 = streamByte s 1 ∧ rest = s.rxs.drop 2 := by
      simpa [h] using hrxs
    rfl
  · next h => exact (h _ _ _ hrxs).elim

/-- LEN7 = 127 ends the length phase with nothing more read (R203). -/
theorem lengthPhase_unsupported {b1 : Byte} (h7 : b1Len7 b1 = 127) (u : State) :
    lengthPhase b1 u = u.raise .unsupportedLength := if_pos h7

/-- An extended length that is not there ends the length phase with nothing more read (R204). -/
theorem lengthPhase_missing {b1 : Byte} (h126 : b1Len7 b1 = 126) {u : State} (hlen : u.rxs.length < 2) :
    lengthPhase b1 u = u.raise .truncatedRead := by
  unfold lengthPhase
  rw [if_neg (by omega), if_pos h126]
  split
  · next h => simp [h] at hlen
  · rfl

/-- With the length fields in the stream the key phase follows, on the declared length (R204). -/
theorem receiveFrame_lengthRead {s : State} (hr : HeaderRead s) (h7 : b1Len7 (streamByte s 1) ≠ 127)
    (hext : b1Len7 (streamByte s 1) = 126 → 4 ≤ s.rxs.length) :
    receiveFrame s = keyPhase (b1Masked (streamByte s 1)) (declaredLength s) (lengthTaken s) := by
  rw [receiveFrame_headerRead hr]
  by_cases h126 : b1Len7 (streamByte s 1) = 126
  · have h4 := hext h126
    have hrest : (headerTaken s).rxs = streamByte s 2 :: streamByte s 3 :: s.rxs.drop 4 := by
      rw [← drop_rxs_eq_cons (by omega), ← drop_rxs_eq_cons (by omega)]
      rfl
    have hoff : keyOffset s = 4 := by rw [keyOffset, if_pos h126]
    have hdecl : declaredLength s = extendedLength (streamByte s 2) (streamByte s 3) := if_pos h126
    rw [lengthPhase_ext _ _ h126 _ _ _ hrest, lengthTaken, hoff, hdecl]
  · have hoff : keyOffset s = 2 := by rw [keyOffset, if_neg h126]
    have hdecl : declaredLength s = b1Len7 (streamByte s 1) := if_neg h126
    rw [lengthPhase_short _ _ h7 h126, lengthTaken, hoff, hdecl]
    rfl

/-- DECODE gets to the payload of the frame at the front: legal parameters, the header and its lengths there, and for a
masked frame MASK_AVAIL_MIN bytes from the key on (R201 to R206). -/
structure PayloadReached (s : State) : Prop where
  legal : s.cfg.Legal
  header : HeaderRead s
  supported : b1Len7 (streamByte s 1) ≠ 127
  extended : b1Len7 (streamByte s 1) = 126 → 4 ≤ s.rxs.length
  key : b1Masked (streamByte s 1) = true → s.cfg.maskAvailMin ≤ s.rxs.length - (frontHeader s - 4)

/-- Where DECODE gets to the payload the whole header is in the stream. -/
theorem PayloadReached.frontHeader_le {s : State} (h : PayloadReached s) : frontHeader s ≤ s.rxs.length := by
  obtain ⟨⟨-, -, -, hmin, -⟩, ⟨-, h2⟩, -, hext, hkey⟩ := h
  cases hm : b1Masked (streamByte s 1) with
  | true =>
    have havail := hkey hm
    rw [frontHeader_of_masked hm] at havail ⊢
    omega
  | false =>
    rw [frontHeader_of_unmasked hm, keyOffset]
    split
    · next h126 => exact hext h126
    · exact h2

/-- With the key read, or none to read, the payload phase follows, on the frame's own key (R206). -/
theorem receiveFrame_keyRead {s : State} (h : PayloadReached s) :
    receiveFrame s = payloadPhase (frontKey s) (declaredLength s) (keyTaken s) := by
  rw [receiveFrame_lengthRead h.header h.supported h.extended]
  have hle := h.frontHeader_le
  cases hm : b1Masked (streamByte s 1) with
  | true =>
    have havail := h.key hm
    have hhdr := frontHeader_of_masked hm
    have hrest : (lengthTaken s).rxs = streamByte s (keyOffset s) :: streamByte s (keyOffset s + 1) ::
        streamByte s (keyOffset s + 2) :: streamByte s (keyOffset s + 3) :: s.rxs.drop (keyOffset s + 4) := by
      rw [← drop_rxs_eq_cons (by omega), ← drop_rxs_eq_cons (by omega), ← drop_rxs_eq_cons (by omega),
        ← drop_rxs_eq_cons (by omega)]
      rfl
    have hkey : frontKey s = packKey (streamByte s (keyOffset s)) (streamByte s (keyOffset s + 1))
        (streamByte s (keyOffset s + 2)) (streamByte s (keyOffset s + 3)) := by
      rw [frontKey, if_pos hm, hhdr]
      rfl
    have hmin : s.cfg.maskAvailMin ≤ (lengthTaken s).rxs.length := by
      rw [lengthTaken_rxs_length]
      omega
    rw [keyPhase_masked _ _ _ _ _ _ _ hrest hmin, keyTaken, hkey, hhdr]
  | false =>
    have hkey : frontKey s = 0 := by rw [frontKey, hm]; rfl
    rw [keyPhase_plain, keyTaken, hkey, frontHeader_of_unmasked hm]
    rfl

/-! ### What the payload phase leaves -/

/-- The payload phase takes the bytes wanted, or all there are (R207). -/
theorem payloadPhase_rxs (k : Word) (len : Nat) (u : State) :
    (payloadPhase k len u).rxs = u.rxs.drop (min len u.cfg.rxCap) := by
  rw [payloadPhase_eq]
  dsimp only
  split_ifs <;> rfl

/-- RX_LEN counts the bytes read (R207, R208). -/
theorem payloadPhase_rxLen (k : Word) (len : Nat) (u : State) :
    (payloadPhase k len u).rxLen = BitVec.ofNat 16 (min (min len u.cfg.rxCap) u.rxs.length) := by
  rw [payloadPhase_eq, ← List.length_take, ← Nat.zero_add (u.rxs.take _).length]
  dsimp only
  split_ifs <;> rfl

/-- RXBUF takes the bytes read, unmasked (R207). -/
theorem payloadPhase_rxbuf (k : Word) (len : Nat) (u : State) :
    (payloadPhase k len u).rxbuf =
      Memory.writeBytes u.rxbuf 0 (maskFrom k 0 (u.rxs.take (min len u.cfg.rxCap))) := by
  rw [payloadPhase_eq]
  dsimp only
  split_ifs <;> rfl

/-- Byte `i` of RXBUF is payload byte `i` unmasked, if it was read (R207, R170). -/
theorem payloadPhase_readBuf (k : Word) {len i : Nat} {u : State} {b : Byte} (hi : i < min len u.cfg.rxCap)
    (hb : u.rxs[i]? = some b) : (payloadPhase k len u).readBuf .rxbuf i = some (b ^^^ keyByte k (i % 4)) := by
  obtain ⟨hthere, -⟩ := List.getElem?_eq_some_iff.1 hb
  have hrange : 0 ≤ i ∧ i < 0 + (maskFrom k 0 (u.rxs.take (min len u.cfg.rxCap))).length := by
    rw [maskFrom_length, List.length_take]
    omega
  change Memory.read (payloadPhase k len u).rxbuf i = _
  rw [payloadPhase_rxbuf, Memory.read_writeBytes, if_pos hrange, maskFrom_getElem?, Nat.sub_zero,
    List.getElem?_take_of_lt hi, hb, Option.map_some, Nat.zero_add]

/-- The payload phase leaves RX_DLEN. -/
@[simp] theorem payloadPhase_rxDlen (k : Word) (len : Nat) (u : State) : (payloadPhase k len u).rxDlen = u.rxDlen := by
  rw [payloadPhase_eq]
  dsimp only
  split_ifs <;> rfl

/-- The payload phase leaves RX_MKEY. -/
@[simp] theorem payloadPhase_rxMkey (k : Word) (len : Nat) (u : State) : (payloadPhase k len u).rxMkey = u.rxMkey := by
  rw [payloadPhase_eq]
  dsimp only
  split_ifs <;> rfl

/-- The three endings of the payload phase (R208, R209, R212). -/
theorem payloadPhase_err (k : Word) (len : Nat) (u : State) :
    (payloadPhase k len u).err =
      if u.rxs.length < min len u.cfg.rxCap then .truncatedRead
      else if u.cfg.rxCap < len then .payloadTooLarge else .ok := by
  rw [payloadPhase_eq]
  dsimp only
  split_ifs <;> rfl

/-- The payload phase sets RX_VALID where it ends OK, and leaves it otherwise (R208, R209, R212). -/
theorem payloadPhase_rxValid (k : Word) (len : Nat) (u : State) :
    (payloadPhase k len u).rxValid = (decide ((payloadPhase k len u).err = .ok) || u.rxValid) := by
  rw [payloadPhase_err, payloadPhase_eq]
  dsimp only
  split_ifs <;> rfl

/-! ### What the key phase leaves, whatever becomes of the frame -/

/-- The key phase leaves RX_DLEN. -/
theorem keyPhase_rxDlen (masked : Bool) (len : Nat) (u : State) : (keyPhase masked len u).rxDlen = u.rxDlen := by
  unfold keyPhase
  split_ifs
  · rfl
  · split
    · exact payloadPhase_rxDlen _ _ _
    · rfl
  · exact payloadPhase_rxDlen _ _ _

/-- The key phase only takes bytes from the front of the stream (R92). -/
theorem keyPhase_rxs (masked : Bool) (len : Nat) (u : State) : ∃ n, (keyPhase masked len u).rxs = u.rxs.drop n := by
  unfold keyPhase
  split_ifs
  · exact ⟨0, rfl⟩
  · split
    · next k0 k1 k2 k3 rest h => exact ⟨4 + _, by rw [payloadPhase_rxs, ← List.drop_drop, h]; rfl⟩
    · exact ⟨0, rfl⟩
  · exact ⟨_, payloadPhase_rxs _ _ _⟩

/-- With the length fields in the stream, RX_DLEN is the declared length and at least they are taken, whatever becomes of the
frame (R204). -/
theorem receiveFrame_declared {s : State} (hr : HeaderRead s) (h7 : b1Len7 (streamByte s 1) ≠ 127)
    (hext : b1Len7 (streamByte s 1) = 126 → 4 ≤ s.rxs.length) :
    (receiveFrame s).rxDlen.toNat = declaredLength s ∧
      ∃ n, keyOffset s ≤ n ∧ (receiveFrame s).rxs = s.rxs.drop n := by
  rw [receiveFrame_lengthRead hr h7 hext]
  obtain ⟨n, hn⟩ := keyPhase_rxs (b1Masked (streamByte s 1)) (declaredLength s) (lengthTaken s)
  refine ⟨?_, keyOffset s + n, Nat.le_add_right _ _, ?_⟩
  · rw [keyPhase_rxDlen]
    exact Nat.mod_eq_of_lt (declaredLength_lt s)
  · rw [hn, ← List.drop_drop]
    rfl

/-! ### A frame whose payload is read -/

section
variable {s : State} (h : PayloadReached s)
include h

/-- The header and at most RX_CAP payload bytes are taken from the stream (R207). -/
theorem PayloadReached.rxs_eq :
    (receiveFrame s).rxs = s.rxs.drop (frontHeader s + min (declaredLength s) s.cfg.rxCap) := by
  rw [receiveFrame_keyRead h, payloadPhase_rxs, ← List.drop_drop]
  rfl

/-- RX_LEN counts the payload bytes read, which fit its 16 bits (R46, R207). -/
theorem PayloadReached.rxLen_eq :
    (receiveFrame s).rxLen.toNat =
      min (min (declaredLength s) s.cfg.rxCap) (s.rxs.length - frontHeader s) := by
  have hfit := declaredLength_lt s
  rw [receiveFrame_keyRead h, payloadPhase_rxLen, keyTaken_rxs_length]
  exact Nat.mod_eq_of_lt (by omega)

/-- RX_DLEN is the declared length (R204). -/
theorem PayloadReached.rxDlen_eq : (receiveFrame s).rxDlen.toNat = declaredLength s :=
  (receiveFrame_declared h.header h.supported h.extended).1

/-- RX_MKEY is the frame's key (R206). -/
theorem PayloadReached.rxMkey_eq : (receiveFrame s).rxMkey = frontKey s := by
  rw [receiveFrame_keyRead h, payloadPhase_rxMkey]
  rfl

/-- The result code is that of the payload phase (R208, R209, R212). -/
theorem PayloadReached.err_eq :
    (receiveFrame s).err =
      if s.rxs.length - frontHeader s < min (declaredLength s) s.cfg.rxCap then .truncatedRead
      else if s.cfg.rxCap < declaredLength s then .payloadTooLarge else .ok := by
  rw [receiveFrame_keyRead h, payloadPhase_err, keyTaken_rxs_length]
  rfl

/-- The header phase has retired the slot, so RX_VALID is 1 exactly where the payload phase ends OK (R202, R212). -/
theorem PayloadReached.rxValid_eq : (receiveFrame s).rxValid = decide ((receiveFrame s).err = .ok) := by
  rw [receiveFrame_keyRead h, payloadPhase_rxValid]
  exact Bool.or_false _

/-- The payload bytes read stand in RXBUF, unmasked with the frame's key (R207, R170). -/
theorem PayloadReached.rxbuf_eq {i : Nat} (hi : i < (receiveFrame s).rxLen.toNat) :
    (receiveFrame s).readBuf .rxbuf i =
      some (streamByte s (frontHeader s + i) ^^^ keyByte (frontKey s) (i % 4)) := by
  rw [h.rxLen_eq, lt_min_iff] at hi
  obtain ⟨hwanted, hthere⟩ := hi
  rw [receiveFrame_keyRead h]
  exact payloadPhase_readBuf _ hwanted (getElem?_drop_rxs (by omega))

end

/-! ### Keys -/

/-- The bytes of a masked frame's key are the four before its payload (R206). -/
theorem keyByte_frontKey {s : State} (hm : b1Masked (streamByte s 1) = true) {j : Nat} (hj : j < 4) :
    keyByte (frontKey s) j = streamByte s (frontHeader s - 4 + j) := by
  obtain ⟨h0, h1, h2, h3⟩ := keyByte_packKey (streamByte s (keyOffset s)) (streamByte s (keyOffset s + 1))
    (streamByte s (keyOffset s + 2)) (streamByte s (keyOffset s + 3))
  rw [frontKey, if_pos hm, frontHeader_of_masked hm]
  interval_cases j
  · exact h0
  · exact h1
  · exact h2
  · exact h3

/-- An unmasked frame has the zero key (R206). -/
theorem frontKey_of_unmasked {s : State} (hm : b1Masked (streamByte s 1) = false) : frontKey s = 0 := by
  rw [frontKey, hm]
  rfl

/-- Every byte of the zero key is zero. -/
theorem keyByte_zero (j : Nat) : keyByte 0 j = 0 := by
  unfold keyByte
  split <;> rfl

/-! ### DRAIN -/

/-- DRAIN always frees the inbound slot and ends OK (R220). -/
theorem exec_drain (s : State) :
    exec .drain s = .next ({ s with rxValid := false, rxLen := 0 } : State).finish := rfl

end Sys2Proof.Machine

namespace Sys2Proof.Proofs

open Sys2Proof.Machine Sys2Proof.Claims

/-- Settles O25: with no extended length the length phase ends where it began; with the length fields there,
`receiveFrame_declared` says what RX_DLEN is and that they are gone. -/
theorem decodeDeclaredLength : Obligations.DecodeDeclaredLength := by
  unfold Obligations.DecodeDeclaredLength
  refine ⟨fun s hr h126 hlen => ?_, fun s hr h126 h4 => ?_, fun s hr hlt => ?_⟩
  · have hshort : (headerTaken s).rxs.length < 2 := by
      rw [headerTaken_rxs_length]
      omega
    rw [exec_decode, receiveFrame_headerRead hr, lengthPhase_missing h126 hshort]
    rfl
  · obtain ⟨hdlen, n, hn, hrxs⟩ := receiveFrame_declared hr (by omega) (fun _ => h4)
    rw [keyOffset, if_pos h126] at hn
    rw [declaredLength, if_pos h126] at hdlen
    exact ⟨_, n, exec_decode s, hdlen, hn, hrxs⟩
  · obtain ⟨hdlen, n, hn, hrxs⟩ := receiveFrame_declared hr (by omega) (fun h => absurd h (by omega))
    rw [keyOffset, if_neg (by omega)] at hn
    rw [declaredLength, if_neg (by omega)] at hdlen
    exact ⟨_, n, exec_decode s, hdlen, hn, hrxs⟩

/-- Settles O26: RX_MKEY is the key at the front (`PayloadReached.rxMkey_eq`), and XOR with the zero key of an unmasked frame
leaves its payload bytes as they are. -/
theorem decodeMaskKey : Obligations.DecodeMaskKey := by
  unfold Obligations.DecodeMaskKey
  intro s hlegal hr h7 hext havail
  have h : PayloadReached s := ⟨hlegal, hr, h7, hext, havail⟩
  refine ⟨_, _, exec_decode s, Nat.le_add_right _ _, h.rxs_eq, fun hm j hj => ?_, fun hm => ⟨?_, fun i hi => ?_⟩⟩
  · rw [h.rxMkey_eq, keyByte_frontKey hm hj]
  · rw [h.rxMkey_eq, frontKey_of_unmasked hm]
  · rw [h.rxbuf_eq hi, frontKey_of_unmasked hm, keyByte_zero]
    exact congrArg some BitVec.xor_zero

/-- Settles O27: the key phase raises MissingMaskKey on the state the length phase leaves. -/
theorem decodeMissingMaskKey : Obligations.DecodeMissingMaskKey := by
  unfold Obligations.DecodeMissingMaskKey
  intro s hr hm h7 hext hfew
  have hoff : frontHeader s - 4 = keyOffset s := by rw [frontHeader_of_masked hm, Nat.add_sub_cancel]
  rw [hoff] at hfew ⊢
  rw [← lengthTaken_rxs_length] at hfew
  rw [exec_decode, receiveFrame_lengthRead hr h7 hext, hm, keyPhase_missing _ _ hfew]
  rfl

/-- Settles O28: fewer payload bytes than wanted are the first ending of the payload phase, and all of them are taken. -/
theorem decodeTruncatedPayload : Obligations.DecodeTruncatedPayload := by
  unfold Obligations.DecodeTruncatedPayload
  intro s hlegal hr h7 hext havail hshort
  have h : PayloadReached s := ⟨hlegal, hr, h7, hext, havail⟩
  have herr : (receiveFrame s).err = .truncatedRead := by rw [h.err_eq, if_pos hshort]
  refine ⟨_, exec_decode s, herr, ?_, ?_, ?_, fun i hi => h.rxbuf_eq hi⟩
  · rw [h.rxValid_eq, herr]
    rfl
  · rw [h.rxs_eq]
    exact List.drop_eq_nil_of_le (by omega)
  · rw [h.rxLen_eq, min_eq_right hshort.le]

/-- Settles O29: above RX_CAP the payload phase has two endings, by whether the stream holds RX_CAP payload bytes. -/
theorem decodePayloadTooLarge : Obligations.DecodePayloadTooLarge := by
  unfold Obligations.DecodePayloadTooLarge
  intro s hlegal hr h7 hext havail hlarge
  have h : PayloadReached s := ⟨hlegal, hr, h7, hext, havail⟩
  have hwanted : min (declaredLength s) s.cfg.rxCap = s.cfg.rxCap := min_eq_right hlarge.le
  have herr := h.err_eq
  have hrxs := h.rxs_eq
  have hlen := h.rxLen_eq
  rw [hwanted] at herr hrxs hlen
  rw [if_pos hlarge] at herr
  refine ⟨_, exec_decode s, ?_, fun hshort => ?_, fun hthere => ⟨?_, ?_, hrxs, fun i hi => ?_⟩⟩
  · rw [h.rxValid_eq, herr]
    split <;> rfl
  · rw [herr, if_pos hshort]
  · rw [herr, if_neg (by omega)]
  · rw [hlen, min_eq_left hthere]
  · exact h.rxbuf_eq (by omega)

/-- Settles O30: a whole frame within RX_CAP is the last ending of the payload phase, with all L payload bytes read. -/
theorem decodeDeliversTheFrame : Obligations.DecodeDeliversTheFrame := by
  unfold Obligations.DecodeDeliversTheFrame
  intro s hlegal hr h7 hext havail hfits hwhole
  have h : PayloadReached s := ⟨hlegal, hr, h7, hext, havail⟩
  have hwanted : min (declaredLength s) s.cfg.rxCap = declaredLength s := min_eq_left hfits
  have herr : (receiveFrame s).err = .ok := by rw [h.err_eq, if_neg (by omega), if_neg (by omega)]
  have hlen : (receiveFrame s).rxLen.toNat = declaredLength s := by
    rw [h.rxLen_eq, hwanted]
    omega
  refine ⟨_, exec_decode s, ?_, herr, hlen, ?_, ?_, h.rxMkey_eq, ?_, fun i hi => h.rxbuf_eq (hlen.symm ▸ hi)⟩
  · rw [h.rxValid_eq, herr]
    rfl
  · exact BitVec.eq_of_toNat_eq (h.rxDlen_eq.trans hlen.symm)
  · rw [receiveFrame_headerRead hr, lengthPhase_rxHdr]
    rfl
  · rw [h.rxs_eq, hwanted]

/-- Settles O23: the two refusals of the gate, before any register but ERR is written. -/
theorem decodeGate : Obligations.DecodeGate := by
  unfold Obligations.DecodeGate
  refine fun s => ⟨fun hst => ?_, fun hst hlen => ?_⟩
  · rw [exec_decode, receiveFrame_notStarted hst]
    rfl
  · rw [exec_decode, receiveFrame_idle hst hlen]
    rfl

/-- Settles O24: the length phase raises UnsupportedLength on the state the header phase leaves. -/
theorem decodeUnsupportedLength : Obligations.DecodeUnsupportedLength := by
  unfold Obligations.DecodeUnsupportedLength
  intro s b0 b1 rest hst hrxs h7
  have hr : HeaderRead s := ⟨hst, by simp [hrxs]⟩
  have hb0 : streamByte s 0 = b0 := by rw [streamByte, hrxs]; rfl
  have hb1 : streamByte s 1 = b1 := by rw [streamByte, hrxs]; rfl
  rw [exec_decode, receiveFrame_headerRead hr, headerTaken, hb0, hb1, lengthPhase_unsupported h7, hrxs]
  rfl

/-- Settles O35: CMDOP 0x2 has no operands, so its words decode as 0x00000002 does; the command runs without a condition. -/
theorem drainReleasesTheSlot : Obligations.DrainReleasesTheSlot := by
  unfold Obligations.DrainReleasesTheSlot
  refine ⟨fun w hop => ?_, exec_drain⟩
  rw [decodeCommand_eq_of_no_operands (by simp [hop]) (by simp [hop]), hop]
  rfl

end Sys2Proof.Proofs
end

section
/-! PROOFS. The family of 42_encode: ENCODE and FLUSH (R251, R252, R260). First what a run of reads answers for bytes that are
written, then what each command answers in each of its cases, then the bytes of an outbound frame and of TXBUF after ENCODE,
then the three statements. -/

namespace Sys2Proof.Machine

open Sys2Proof.Claims

/-! ### Reading a run of written bytes -/

/-- A run of written bytes is read whole (R88). -/
theorem readBytes_of_written {s : State} {b : Buffer} {n : Nat} (hw : Written s b n) :
    ∃ bs, Memory.readBytes (s.buffer b) 0 n = .ok bs := by
  cases hr : Memory.readBytes (s.buffer b) 0 n with
  | ok bs => exact ⟨bs, rfl⟩
  | error j =>
    obtain ⟨-, hj, hnone, -⟩ := Memory.readBytes_eq_error hr
    have hsome : (Memory.read (s.buffer b) j).isSome = true := hw j (by omega)
    simp [hnone] at hsome

/-- A run of reads stops at its first unwritten byte (R88). -/
theorem readBytes_of_first_unwritten {s : State} {b : Buffer} {n i : Nat} (hi : i < n) (hnone : s.readBuf b i = none)
    (hw : Written s b i) : Memory.readBytes (s.buffer b) 0 n = .error i := by
  change Memory.read (s.buffer b) i = none at hnone
  cases hr : Memory.readBytes (s.buffer b) 0 n with
  | ok bs =>
    obtain ⟨hlen, hread⟩ := Memory.readBytes_eq_ok.1 hr
    have hin := hread i hi
    rw [Nat.zero_add, hnone] at hin
    have hout := List.getElem?_eq_none_iff.1 hin.symm
    omega
  | error j =>
    obtain ⟨-, -, hj, hbefore⟩ := Memory.readBytes_eq_error hr
    obtain hlt | rfl | hgt := lt_trichotomy j i
    · have hsome : (Memory.read (s.buffer b) j).isSome = true := hw j hlt
      simp [hj] at hsome
    · rfl
    · have hsome := hbefore i i.zero_le hgt
      simp [hnone] at hsome

/-! ### The cases of ENCODE -/

section
variable {s : State} {op : FrameOpcode} {len : Nat}

/-- ENCODE with a frame still queued (R251). -/
theorem exec_encode_busy (hb : s.txBusy = true) : exec (.encode op len) s = .next (s.raise .sendBusy) :=
  if_pos hb

/-- ENCODE of a payload above TX_CAP (R251). -/
theorem exec_encode_tooLarge (hb : s.txBusy = false) (hcap : s.cfg.txCap < len) :
    exec (.encode op len) s = .next (s.raise .payloadTooLarge) := by
  change execEncode op len s = _
  rw [execEncode, hb, if_neg Bool.false_ne_true, if_pos hcap]

/-- ENCODE of a payload with an unwritten byte (R88). -/
theorem exec_encode_unwritten {i : Nat} (hb : s.txBusy = false) (hcap : len ≤ s.cfg.txCap)
    (hr : Memory.readBytes s.pin 0 len = .error i) : exec (.encode op len) s = .fault (.unwritten .pin i) := by
  change execEncode op len s = _
  rw [execEncode, hb, if_neg Bool.false_ne_true, if_neg (by omega), hr]

/-- ENCODE with its checks passed and its payload read (R252). -/
theorem exec_encode_queued {payload : List Byte} (hb : s.txBusy = false) (hcap : len ≤ s.cfg.txCap)
    (hr : Memory.readBytes s.pin 0 len = .ok payload) :
    exec (.encode op len) s = .next (s.queueFrame (buildFrame op s.maskEn s.maskKey payload)).finish := by
  change execEncode op len s = _
  rw [execEncode, hb, if_neg Bool.false_ne_true, if_neg (by omega), hr]

end

/-! ### The cases of FLUSH -/

section
variable {s : State}

/-- FLUSH before the connection is started (R260). -/
theorem exec_flush_notStarted (hs : s.started = false) : exec .flush s = .next (s.raise .connectionNotStarted) := by
  change execFlush s = _
  rw [execFlush, hs, if_neg Bool.false_ne_true]

/-- FLUSH with nothing queued (R260). -/
theorem exec_flush_idle (hs : s.started = true) (hb : s.txBusy = false) : exec .flush s = .next (s.raise .idle) := by
  change execFlush s = _
  rw [execFlush, hs, if_pos rfl, hb, if_neg Bool.false_ne_true]

/-- FLUSH of a queued frame offers it to the transport (R260). -/
theorem exec_flush_queued {f : List Byte} (hs : s.started = true) (hb : s.txBusy = true)
    (hr : Memory.readBytes s.txbuf 0 s.txLen.toNat = .ok f) : exec .flush s = .next (s.sendFrame f) := by
  change execFlush s = _
  rw [execFlush, hs, if_pos rfl, hb, if_pos rfl, hr]

end

/-! ### The bytes of an outbound frame -/

/-- B0 of an outbound frame: FIN and the opcode, RSV 0 (R252). -/
theorem headerByte_final (op : FrameOpcode) :
    headerByte true false false false op = 0x80#8 ||| op.bits.setWidth 8 := by
  cases op <;> decide

/-- The second header byte: MASK in bit 7, the 7-bit length below it (R122). -/
theorem lengthByte_eq (m : Bool) {len : Nat} (hlen : len < 128) :
    lengthByte m len = (if m then 0x80#8 else 0x00#8) ||| BitVec.ofNat 8 len := by
  have hlow : (BitVec.ofNat 7 len).setWidth 8 = BitVec.ofNat 8 len := by bv_omega
  rw [lengthByte, hlow]
  cases m <;> rfl

/-- The length fields up to 125: the length in B1 (R127). -/
theorem lengthFields_short (m : Bool) {len : Nat} (hlen : len ≤ 125) :
    lengthFields m len = [(if m then 0x80#8 else 0x00#8) ||| BitVec.ofNat 8 len] := by
  rw [lengthFields, if_pos hlen, lengthByte_eq m (by omega)]

/-- The length fields above 125: 126 in B1 and the length in two bytes, the high one first (R127). -/
theorem lengthFields_long (m : Bool) {len : Nat} (hlen : 125 < len) :
    lengthFields m len =
      [(if m then 0x80#8 else 0x00#8) ||| 0x7E#8, BitVec.ofNat 8 (len / 256), BitVec.ofNat 8 (len % 256)] := by
  have hlow : BitVec.ofNat 8 (len % 256) = BitVec.ofNat 8 len := by bv_omega
  rw [lengthFields, if_neg (by omega), lengthByte_eq m (by decide), hlow]

/-- The bytes of an outbound frame before its key and payload (R252). -/
def framePrefix (op : FrameOpcode) (m : Bool) (len : Nat) : List Byte :=
  headerByte true false false false op :: lengthFields m len

/-- The bytes of an outbound frame's key: none if it is unmasked (R252). -/
def frameKey (m : Bool) (k : Word) : List Byte := if m then keyBytes k else []

/-- The payload bytes of an outbound frame, as they are sent (R252). -/
def framePayload (m : Bool) (k : Word) (p : List Byte) : List Byte := if m then maskXor p k else p

/-- An outbound frame is its three parts in order. -/
theorem buildFrame_eq (op : FrameOpcode) (m : Bool) (k : Word) (p : List Byte) :
    buildFrame op m k p = framePrefix op m p.length ++ (frameKey m k ++ framePayload m k p) := by
  cases m <;> rfl

@[simp] theorem framePrefix_length (op : FrameOpcode) (m : Bool) (len : Nat) :
    (framePrefix op m len).length = 2 + (if len ≤ 125 then 0 else 2) := by
  rw [framePrefix, List.length_cons, lengthFields_length]
  split <;> rfl

@[simp] theorem frameKey_length (m : Bool) (k : Word) : (frameKey m k).length = if m then 4 else 0 := by
  cases m <;> rfl

/-- B0 is the frame's first byte (R121). -/
theorem framePrefix_getElem?_zero (op : FrameOpcode) (m : Bool) (len : Nat) :
    (framePrefix op m len)[0]? = some (0x80#8 ||| op.bits.setWidth 8) :=
  congrArg some (headerByte_final op)

/-- B1 of a frame with a short length (R127). -/
theorem framePrefix_getElem?_short (op : FrameOpcode) (m : Bool) {len : Nat} (hlen : len ≤ 125) :
    (framePrefix op m len)[1]? = some ((if m then 0x80#8 else 0x00#8) ||| BitVec.ofNat 8 len) := by
  rw [framePrefix, lengthFields_short m hlen]
  rfl

/-- B1 and the two length bytes of a frame with an extended length (R127). -/
theorem framePrefix_getElem?_long (op : FrameOpcode) (m : Bool) {len : Nat} (hlen : 125 < len) :
    (framePrefix op m len)[1]? = some ((if m then 0x80#8 else 0x00#8) ||| 0x7E#8) ∧
      (framePrefix op m len)[2]? = some (BitVec.ofNat 8 (len / 256)) ∧
      (framePrefix op m len)[3]? = some (BitVec.ofNat 8 (len % 256)) := by
  rw [framePrefix, lengthFields_long m hlen]
  exact ⟨rfl, rfl, rfl⟩

/-- Byte `j` of a key as it is sent (R97). -/
theorem keyBytes_getElem? (k : Word) {j : Nat} (hj : j < 4) : (keyBytes k)[j]? = some (keyByte k j) := by
  interval_cases j <;> rfl

/-- Byte `i` of the payload as it is sent: masked with its key byte if the frame is (R170). -/
theorem framePayload_getElem? (m : Bool) (k : Word) {p : List Byte} {i : Nat} {b : Byte} (hb : p[i]? = some b) :
    (framePayload m k p)[i]? = some (if m then b ^^^ keyByte k (i % 4) else b) := by
  cases m
  · exact hb
  · change (maskFrom k 0 p)[i]? = _
    rw [maskFrom_getElem?, hb, Nat.zero_add]
    rfl

section
variable (op : FrameOpcode) (m : Bool) (k : Word) (p : List Byte)

/-- The bytes of the frame before its key are those of the prefix. -/
theorem buildFrame_getElem?_of_prefix {i : Nat} {b : Byte} (hb : (framePrefix op m p.length)[i]? = some b) :
    (buildFrame op m k p)[i]? = some b := by
  obtain ⟨hi, -⟩ := List.getElem?_eq_some_iff.1 hb
  rw [buildFrame_eq, List.getElem?_append_left hi, hb]

/-- The key of a masked frame stands after the prefix. -/
theorem buildFrame_getElem?_key {j : Nat} (hj : j < 4) :
    (buildFrame op true k p)[(framePrefix op true p.length).length + j]? = some (keyByte k j) := by
  rw [buildFrame_eq, List.getElem?_append_right (Nat.le_add_right _ _), Nat.add_sub_cancel_left]
  exact (List.getElem?_append_left hj).trans (keyBytes_getElem? k hj)

/-- The payload stands after the prefix and the key. -/
theorem buildFrame_getElem?_payload {i : Nat} {b : Byte} (hb : p[i]? = some b) :
    (buildFrame op m k p)[(framePrefix op m p.length ++ frameKey m k).length + i]? =
      some (if m then b ^^^ keyByte k (i % 4) else b) := by
  rw [buildFrame_eq, ← List.append_assoc, List.getElem?_append_right (Nat.le_add_right _ _), Nat.add_sub_cancel_left,
    framePayload_getElem? m k hb]

end

/-! ### TXBUF after ENCODE -/

/-- A byte of the queued frame stands at its place in TXBUF (R252). -/
theorem readBuf_queueFrame_of_getElem? {f : List Byte} {i : Nat} {b : Byte} (s : State) (hb : f[i]? = some b) :
    (s.queueFrame f).finish.readBuf .txbuf i = some b := by
  obtain ⟨hi, -⟩ := List.getElem?_eq_some_iff.1 hb
  change Memory.read (Memory.writeBytes s.txbuf 0 f) i = _
  rw [Memory.read_writeBytes, if_pos (by omega), Nat.sub_zero, hb]

/-- Past the queued frame TXBUF keeps its bytes (R252). -/
theorem readBuf_queueFrame_of_le {f : List Byte} {i : Nat} (s : State) (hi : f.length ≤ i) :
    (s.queueFrame f).finish.readBuf .txbuf i = s.readBuf .txbuf i := by
  change Memory.read (Memory.writeBytes s.txbuf 0 f) i = _
  rw [Memory.read_writeBytes, if_neg (by omega)]
  rfl

/-- TX_LEN is the queued frame's size, if that fits its 17 bits (R48, R252). -/
theorem queueFrame_txLen_toNat (s : State) {f : List Byte} (hf : f.length < 2 ^ 17) :
    (s.queueFrame f).txLen.toNat = f.length :=
  Nat.mod_eq_of_lt hf

end Sys2Proof.Machine

namespace Sys2Proof.Proofs

open Sys2Proof.Machine Sys2Proof.Claims

/-- Settles O38: the payload is read from PIN whole or up to its first unwritten byte; in the first case each byte of TXBUF is
the byte of `buildFrame` at its place in the prefix, the key or the payload. -/
theorem encodeBuildsTheFrame : Obligations.EncodeBuildsTheFrame := by
  unfold Obligations.EncodeBuildsTheFrame
  intro s op len hlegal hbusy hcap
  refine ⟨fun hw => ?_, fun i hi hnone hw =>
    exec_encode_unwritten hbusy hcap (readBytes_of_first_unwritten hi hnone hw)⟩
  obtain ⟨payload, hr⟩ := readBytes_of_written hw
  obtain ⟨rfl, hread⟩ := Memory.readBytes_eq_ok.1 hr
  obtain ⟨-, htx, -, -⟩ := hlegal
  have hhead : 2 + (if payload.length ≤ 125 then 0 else 2) + (if s.maskEn then 4 else 0) =
      (framePrefix op s.maskEn payload.length ++ frameKey s.maskEn s.maskKey).length := by
    rw [List.length_append, framePrefix_length, frameKey_length]
  have hsize : (buildFrame op s.maskEn s.maskKey payload).length =
      2 + (if payload.length ≤ 125 then 0 else 2) + (if s.maskEn then 4 else 0) + payload.length := by
    rw [buildFrame_length]
    split_ifs <;> omega
  have hprefix : ∀ {i b}, (framePrefix op s.maskEn payload.length)[i]? = some b →
      (s.queueFrame (buildFrame op s.maskEn s.maskKey payload)).finish.readBuf .txbuf i = some b :=
    fun hb => readBuf_queueFrame_of_getElem? s (buildFrame_getElem?_of_prefix op s.maskEn s.maskKey payload hb)
  refine ⟨_, _, exec_encode_queued hbusy hcap hr, rfl, hprefix (framePrefix_getElem?_zero op _ _),
    fun hshort => hprefix (framePrefix_getElem?_short op _ hshort), fun hlong => ?_,
    fun hm j hj => readBuf_queueFrame_of_getElem? s ?_,
    fun i hi => ⟨payload[i], ?_, readBuf_queueFrame_of_getElem? s ?_⟩,
    fun i hi => readBuf_queueFrame_of_le s (hsize.trans_le hi), ?_, rfl⟩
  · obtain ⟨hb1, hhigh, hlow⟩ := framePrefix_getElem?_long op s.maskEn hlong
    exact ⟨hprefix hb1, hprefix hhigh, hprefix hlow⟩
  · rw [hm, if_pos rfl, Nat.add_sub_cancel, ← framePrefix_length op true]
    exact buildFrame_getElem?_key op s.maskKey payload hj
  · have hpin := hread i hi
    rwa [Nat.zero_add, List.getElem?_eq_getElem hi] at hpin
  · rw [hhead]
    exact buildFrame_getElem?_payload op s.maskEn s.maskKey payload (List.getElem?_eq_getElem hi)
  · have hfits : (buildFrame op s.maskEn s.maskKey payload).length < 2 ^ 17 := by
      rw [hsize]
      split_ifs <;> omega
    rw [State.finish_txLen, queueFrame_txLen_toNat s hfits, hsize]

/-- Settles O40: CMDOP 0x4 has no operands, so its words decode as 0x00000004 does; a queued frame has a byte, so the transport
sends all of it or a proper prefix (`sendFrame_cases`). -/
theorem flushOffersTheQueuedFrame : Obligations.FlushOffersTheQueuedFrame := by
  unfold Obligations.FlushOffersTheQueuedFrame
  refine ⟨fun w hop => ?_, fun s => ⟨exec_flush_notStarted, exec_flush_idle, fun hs hb htwo f hr => ?_⟩⟩
  · rw [decodeCommand_eq_of_no_operands (by simp [hop]) (by simp [hop]), hop]
    rfl
  · obtain ⟨hlen, -⟩ := Memory.readBytes_eq_ok.1 hr
    refine ⟨_, exec_flush_queued hs hb hr, ?_⟩
    obtain ⟨answers, draws, hall | ⟨j, hj, hpart⟩⟩ := sendFrame_cases f (by omega) s
    · rw [hall]
      exact ⟨.inl ⟨rfl, rfl⟩, rfl⟩
    · rw [hpart]
      exact ⟨.inr ⟨rfl, j, hj, rfl⟩, rfl⟩

/-- Settles O37: the two refusals, in the order ENCODE tests them, before it reads PIN. -/
theorem encodeRefusesBeforeAnyWrite : Obligations.EncodeRefusesBeforeAnyWrite := by
  unfold Obligations.EncodeRefusesBeforeAnyWrite
  exact fun s op len => ⟨exec_encode_busy, exec_encode_tooLarge⟩

end Sys2Proof.Proofs
end

section
/-! PROOFS. The family of 43_handshake_key: DERIVE_KEY (R300). First what the command answers in each of its cases, then
the bytes of ACCEPT after it, then the statement. -/

namespace Sys2Proof.Machine

/-! ### The cases of DERIVE_KEY -/

section
variable {s : State} {n : Nat}

/-- DERIVE_KEY of a key above KEY_MAX (R300). -/
theorem exec_deriveKey_tooLong (hmax : s.cfg.keyMax < n) : exec (.deriveKey n) s = .next (s.raise .keyTooLong) :=
  if_pos hmax

/-- DERIVE_KEY of a key with an unwritten byte (R88). -/
theorem exec_deriveKey_unwritten {i : Nat} (hmax : n ≤ s.cfg.keyMax) (hr : Memory.readBytes s.keyin 0 n = .error i) :
    exec (.deriveKey n) s = .fault (.unwritten .keyin i) := by
  change execDeriveKey n s = _
  rw [execDeriveKey, if_neg (by omega), hr]

/-- DERIVE_KEY with its key read (R300). -/
theorem exec_deriveKey_derived {key : List Byte} (hmax : n ≤ s.cfg.keyMax)
    (hr : Memory.readBytes s.keyin 0 n = .ok key) :
    exec (.deriveKey n) s =
      .next ({ s with accept := Memory.writeBytes s.accept 0 (acceptKey key) } : State).finish := by
  change execDeriveKey n s = _
  rw [execDeriveKey, if_neg (by omega), hr]

end

/-! ### ACCEPT after DERIVE_KEY -/

/-- Bytes stored from ACCEPT[0] on are read back at their places; past them ACCEPT keeps its bytes (R300). -/
theorem readBuf_accept_writeBytes (s : State) (bs : List Byte) (j : Nat) :
    ({ s with accept := Memory.writeBytes s.accept 0 bs } : State).finish.readBuf .accept j =
      if j < bs.length then bs[j]? else s.readBuf .accept j := by
  change Memory.read (Memory.writeBytes s.accept 0 bs) j = _
  rw [Memory.read_writeBytes]
  simp only [Nat.zero_le, true_and, Nat.zero_add, Nat.sub_zero]
  rfl

end Sys2Proof.Machine

namespace Sys2Proof.Proofs

open Sys2Proof.Machine

/-- Settles O45: the three cases of DERIVE_KEY. Where it derives, ACCEPT is read back by position
(`readBuf_accept_writeBytes`) and the accept key has 28 characters (`acceptKey_length`); where it faults, the run of
reads stops at the first unwritten byte (`readBytes_of_first_unwritten`). -/
theorem deriveKeyWritesTheAcceptKey : Obligations.DeriveKeyWritesTheAcceptKey := by
  unfold Obligations.DeriveKeyWritesTheAcceptKey
  refine ⟨fun w hop => by simp [decodeCommand, hop], fun s n => ⟨exec_deriveKey_tooLong, fun hmax key hr => ?_,
    fun hmax i hi hnone hw => exec_deriveKey_unwritten hmax (readBytes_of_first_unwritten hi hnone hw)⟩⟩
  refine ⟨_, exec_deriveKey_derived hmax hr, fun j hj => ?_, fun j hj => ?_, ?_⟩
  · rw [readBuf_accept_writeBytes, acceptKey_length, if_pos hj, acceptKey]
  · rw [readBuf_accept_writeBytes, acceptKey_length, if_neg (by omega)]
  · rw [State.finish_accept]
    rfl

end Sys2Proof.Proofs
end

section
/-! PROOFS. The family of 44_control: CLEAR and the reserved commands (R342, R343, R345). First what CLEAR leaves of
REFRESH_DUE and what a second CLEAR does, then the statements. -/

namespace Sys2Proof.Machine

/-- With the send slot empty and no fresh key a refresh is due (R40). -/
theorem State.refreshDue_of_idle_of_stale {s : State} (hidle : s.txBusy = false) (hstale : s.maskFresh = false) :
    s.refreshDue = true := by
  rw [State.refreshDue, hidle, hstale, Bool.not_false, Bool.and_self]

/-- CLEAR makes a refresh due: it empties the send slot and takes the key's freshness (R342). -/
@[simp] theorem State.clear_refreshDue (s : State) : s.clear.refreshDue = true :=
  State.refreshDue_of_idle_of_stale s.clear_txBusy s.clear_maskFresh

/-- How a command ends does not enter REFRESH_DUE (R40). -/
@[simp] theorem State.finish_refreshDue (s : State) : s.finish.refreshDue = s.refreshDue := rfl

/-- CLEAR on a state that CLEAR left changes nothing (R342). -/
theorem State.clear_finish_idem (s : State) : s.clear.finish.clear.finish = s.clear.finish := rfl

end Sys2Proof.Machine

namespace Sys2Proof.Proofs

open Sys2Proof.Machine

/-- Settles O50: CMDOP 0x7 has no operands, so its words decode as 0x00000007 does; the command runs without a condition,
leaves a refresh due, and is idempotent (`State.clear_finish_idem`). -/
theorem clearReturnsTheDefaults : Obligations.ClearReturnsTheDefaults := by
  unfold Obligations.ClearReturnsTheDefaults
  refine ⟨fun w hop => ?_, fun s => ⟨s.clear.finish, exec_clear s, rfl, ?_, ?_⟩⟩
  · rw [decodeCommand_eq_of_no_operands (by simp [hop]) (by simp [hop]), hop]
    rfl
  · rw [State.finish_refreshDue, State.clear_refreshDue]
  · rw [exec_clear, State.clear_finish_idem]

/-- Settles O51: which words name a reserved command is read off the decoder's table
(`decodeCommand_mem_reservedCommands`); each of the nine raises BadCommand, which sets ERR and CMD_ACTIVE alone. -/
theorem reservedCommandsAreBadCommands : Obligations.ReservedCommandsAreBadCommands := by
  unfold Obligations.ReservedCommandsAreBadCommands
  exact ⟨fun w => (decodeCommand_mem_reservedCommands w).symm, fun _ hi s => exec_of_mem_reservedCommands hi s⟩

end Sys2Proof.Proofs
end

section
/-! PROOFS. The family of 70_reset_and_hazards: power-on (R400). First what the registers and buffers read after reset, then
that power-on of a running machine reads the same, then the statement. -/

namespace Sys2Proof.Machine

/-- With masking off and the connection not started CTRL reads 0 (R33). -/
theorem State.ctrlWord_stopped {s : State} (hmask : s.maskEn = false) (hstarted : s.started = false) :
    s.ctrlWord = 0#32 := by
  rw [State.ctrlWord, hmask, hstarted]
  rfl

/-- After reset STATUS shows REFRESH_DUE alone, and every other register reads 0 (R32). -/
theorem State.readRegister_resetWith (c : Config) (r : Register) :
    (State.resetWith c).readRegister r = if r = .status then 0x00000010#32 else 0#32 := by
  cases r with
  | ctrl => exact State.ctrlWord_stopped rfl rfl
  | status => exact State.statusWord_idle rfl rfl rfl rfl rfl
  | _ => rfl

/-- After reset no buffer byte has a value (R88). -/
theorem State.readBuf_resetWith (c : Config) (b : Buffer) (i : Nat) : (State.resetWith c).readBuf b i = none := by
  cases b <;> rfl

/-- No register shows what power-on keeps: the streams, the inputs still to come and the model's own lists. -/
theorem State.readRegister_powerOn (s : State) (r : Register) :
    s.powerOn.readRegister r = (State.resetWith s.cfg).readRegister r := by
  cases r <;> rfl

/-- Power-on keeps no byte of a buffer. -/
theorem State.readBuf_powerOn (s : State) (b : Buffer) (i : Nat) :
    s.powerOn.readBuf b i = (State.resetWith s.cfg).readBuf b i := by
  cases b <;> rfl

end Sys2Proof.Machine

namespace Sys2Proof.Proofs

open Sys2Proof.Machine

/-- Settles O52: the values are read off the reset state, register by register; power-on of a running machine reads the same
(`State.readRegister_powerOn`, `State.readBuf_powerOn`), and its step keeps both streams (`step_powerOn`). -/
theorem resetLeavesThePowerOnValues : Obligations.ResetLeavesThePowerOnValues := by
  unfold Obligations.ResetLeavesThePowerOnValues
  refine ⟨fun c s hs => ?_, fun s rest hp => ⟨_, step_powerOn hp, rfl, State.powerOn_rxs _, State.powerOn_txs _⟩⟩
  obtain rfl | ⟨u, rfl⟩ := hs
  · exact ⟨State.readRegister_resetWith c, State.readBuf_resetWith c, rfl, rfl⟩
  · exact ⟨fun r => (u.readRegister_powerOn r).trans (State.readRegister_resetWith u.cfg r),
      fun b i => (u.readBuf_powerOn b i).trans (State.readBuf_resetWith u.cfg b i), u.powerOn_err, u.powerOn_cmdActive⟩

end Sys2Proof.Proofs
end

section
/-! PROOFS. The encodings (30_encoding; logs 1 and 10): first the decoder on the encoder's codes, wire instructions and command
words apart, then a placed instruction, then the four statements. -/

namespace Sys2Proof

/-- A base header byte decodes to the wire instruction of its fields (R121, R123). -/
@[simp] theorem decodeWire_headerByte (f r1 r2 r3 : Bool) (op : FrameOpcode) :
    decodeWire (headerByte f r1 r2 r3 op) = frameInstr op f r1 r2 r3 := by
  simp only [decodeWire, b0Opcode_headerByte, b0Fin_headerByte, b0Rsv1_headerByte, b0Rsv2_headerByte, b0Rsv3_headerByte]

/-- The code of a wire instruction is its base header byte (R121). -/
theorem encode_frameInstr (op : FrameOpcode) (f r1 r2 r3 : Bool) :
    encode (frameInstr op f r1 r2 r3) = .wire (headerByte f r1 r2 r3 op) := by
  cases op <;> rfl

/-- Every wire instruction is read back from its code. -/
theorem decode_encode_frameInstr (op : FrameOpcode) (f r1 r2 r3 : Bool) :
    decode (encode (frameInstr op f r1 r2 r3)) = frameInstr op f r1 r2 r3 := by
  rw [encode_frameInstr, decode, decodeWire_headerByte]

/-- ENCODE is read back from its code if its length fits ARG (R132). -/
theorem decode_encode_encode (op : FrameOpcode) {len : Nat} (hlen : len < 65536) :
    decode (encode (.encode op len)) = .encode op len := by
  simp [encode, decode, decodeCommand, cmdArg_commandWord _ _ _ hlen]

/-- DERIVE_KEY is read back from its code if its length fits ARG (R132). -/
theorem decode_encode_deriveKey {n : Nat} (hn : n < 65536) : decode (encode (.deriveKey n)) = .deriveKey n := by
  simp [encode, decode, decodeCommand, cmdArg_commandWord _ _ _ hn]

/-- The table's reading of 32 bits: every number that fits is a command word (R130). -/
theorem decodeTableWord_command (w : Nat) :
    decodeTableWord 32 w = if w < 2 ^ 32 then some (decodeCommand (BitVec.ofNat 32 w)) else none := by
  rw [decodeTableWord, decodeBits, codeOfBits, if_pos rfl]
  by_cases hw : w < 2 ^ 32
  · rw [if_pos hw, if_pos hw]
    rfl
  · rw [if_neg hw, if_neg hw]

/-- The table's reading of 8 bits: every number that fits is a base header byte (R121). -/
theorem decodeTableWord_wire (w : Nat) :
    decodeTableWord 8 w = if w < 2 ^ 8 then some (decodeWire (BitVec.ofNat 8 w)) else none := by
  rw [decodeTableWord, decodeBits, codeOfBits, if_neg (by decide), if_pos rfl]
  by_cases hw : w < 2 ^ 8
  · rw [if_pos hw, if_pos hw]
    rfl
  · rw [if_neg hw, if_neg hw]

end Sys2Proof

namespace Sys2Proof.Machine

/-- DECODE runs the frame whose header byte is at the front of the stream (log 10). -/
theorem exec_decode_eq_exec_decodeWire {s : State} {b0 : Byte} {rest : List Byte} (h : s.rxs = b0 :: rest) :
    exec .decode s = exec (decodeWire b0) { s with rxs := rest } := by
  rw [exec_decode, decodeWire, exec_frameInstr]
  simp only [receiveHeader, headerByte_fields, ← h]

/-- A step of a state where the host's next act is to write a command word runs that command (R34). -/
theorem step_withCommand (w : Word) (s : State) :
    step (s.withCommand w) = exec (decodeCommand w) { s with cmdActive := true } := by
  rw [step_write (s := s.withCommand w) rfl rfl, hostWrite_cmd]
  rfl

end Sys2Proof.Machine

namespace Sys2Proof.Proofs

open Sys2Proof.Machine

/-- Settles O1: wire instructions are read back from their header byte (`decode_encode_frameInstr`), the two commands with
operands from the fields of their word; the other commands have one word each. -/
theorem decodeOfEncodeIsTheInstruction : Obligations.DecodeOfEncodeIsTheInstruction := by
  unfold Obligations.DecodeOfEncodeIsTheInstruction
  intro i hwf
  rcases instr_cases i with ⟨op, f, r1, r2, r3, rfl⟩ | hi | rfl | rfl | ⟨op, len, rfl⟩ | rfl | rfl | ⟨n, rfl⟩ | rfl
  · exact decode_encode_frameInstr op f r1 r2 r3
  · have reserved : ∀ i ∈ [Instr.reservedCmd0, .reservedCmd8, .reservedCmd9, .reservedCmdA, .reservedCmdB, .reservedCmdC,
      .reservedCmdD, .reservedCmdE, .reservedCmdF], decode (encode i) = i := by decide
    exact reserved i hi
  · rfl
  · rfl
  · exact decode_encode_encode op (of_decide_eq_true hwf)
  · rfl
  · rfl
  · exact decode_encode_deriveKey (of_decide_eq_true hwf)
  · rfl

/-- Settles O3: each word and byte is a literal, which the decoder reads by evaluation. -/
theorem sampleEncodingsDecode : Obligations.SampleEncodingsDecode := by
  unfold Obligations.SampleEncodingsDecode
  decide

/-- Settles O6: DECODE takes the header byte off the stream (`exec_decode_eq_exec_decodeWire`), and a frame's meaning puts it
back in front. -/
theorem decodeRunsTheFrameAtTheFront : Obligations.DecodeRunsTheFrameAtTheFront := by
  unfold Obligations.DecodeRunsTheFrameAtTheFront
  refine ⟨fun s b0 rest => exec_decode_eq_exec_decodeWire, fun op f r1 r2 r3 s => ?_⟩
  rw [exec_decode_eq_exec_decodeWire (rest := s.rxs) rfl, decodeWire_headerByte]

/-- Settles O5: a placed word is the host's write of CMD (`step_withCommand`); a placed header byte is the front of the stream
that the placed DECODE reads. -/
theorem placedInstructionIsTheOneThatRuns : Obligations.PlacedInstructionIsTheOneThatRuns := by
  unfold Obligations.PlacedInstructionIsTheOneThatRuns
  refine ⟨fun s w i hi => ?_, fun s w i hi => ?_⟩
  · rw [decodeTableWord_command, Option.ite_none_right_eq_some] at hi
    obtain ⟨-, ⟨⟩⟩ := hi
    exact step_withCommand _ s
  · rw [decodeTableWord_wire, Option.ite_none_right_eq_some] at hi
    obtain ⟨-, ⟨⟩⟩ := hi
    exact (step_withCommand _ _).trans (exec_decode_eq_exec_decodeWire rfl)

end Sys2Proof.Proofs
end

section
/-! PROOFS. MaskXor and its laws (40_mask_xor R170): first the output byte by byte, then each law, then the two statements. -/

namespace Sys2Proof.Machine

/-- The output of MaskXor byte by byte (R170). -/
theorem maskXor_getElem? (p : List Byte) (k : Word) (i : Nat) :
    (maskXor p k)[i]? = p[i]?.map (fun b => b ^^^ keyByte k (i % 4)) := by
  rw [maskXor, maskFrom_getElem?, Nat.zero_add]

@[simp] theorem maskXor_length (p : List Byte) (k : Word) : (maskXor p k).length = p.length := maskFrom_length k 0 p

/-- Masking twice with one key gives the bytes back: XOR cancels itself. -/
theorem maskXor_maskXor (p : List Byte) (k : Word) : maskXor (maskXor p k) k = p := by
  refine List.ext_getElem? fun i => ?_
  rw [maskXor_getElem?, maskXor_getElem?, Option.map_map]
  have cancel : ((fun b => b ^^^ keyByte k (i % 4)) ∘ fun b : Byte => b ^^^ keyByte k (i % 4)) = id :=
    funext fun b => by rw [Function.comp_apply, BitVec.xor_assoc, BitVec.xor_self, BitVec.xor_zero, id]
  rw [cancel, Option.map_id_fun, id]

/-- The zero key masks nothing. -/
theorem maskXor_zero (p : List Byte) : maskXor p 0 = p := by
  refine List.ext_getElem? fun i => ?_
  have same : (fun b : Byte => b ^^^ keyByte 0 (i % 4)) = id :=
    funext fun b => by rw [keyByte_zero]; exact BitVec.xor_zero
  rw [maskXor_getElem?, same, Option.map_id_fun, id]

/-- Masking the first `m` bytes gives the first `m` masked bytes. -/
theorem maskXor_take (p : List Byte) (k : Word) (m : Nat) : maskXor (p.take m) k = (maskXor p k).take m := by
  refine List.ext_getElem? fun i => ?_
  rw [maskXor_getElem?, List.getElem?_take, List.getElem?_take, maskXor_getElem?]
  split_ifs <;> rfl

end Sys2Proof.Machine

namespace Sys2Proof.Proofs

open Sys2Proof.Machine

/-- Settles O19: the engine's output byte by byte (`maskXor_getElem?`) where the input has a byte. -/
theorem maskXorWorksByteByByte : Obligations.MaskXorWorksByteByByte := by
  unfold Obligations.MaskXorWorksByteByByte
  refine fun p k => ⟨maskXor_length p k, fun i b hb => ?_⟩
  rw [maskXor_getElem?, hb, Option.map_some]

/-- Settles O20: each law compares two outputs byte by byte; the last is read off `maskXor_getElem?`. -/
theorem maskXorLaws : Obligations.MaskXorLaws := by
  unfold Obligations.MaskXorLaws
  refine ⟨maskXor_maskXor, maskXor_zero, maskXor_length, maskXor_take, fun p q k l i hb hk => ?_⟩
  rw [maskXor_getElem?, maskXor_getElem?, hb, hk]

end Sys2Proof.Proofs
end

section
/-! PROOFS. DECODE as a whole (41_decode R213, 40_mask_xor R175): first what it leaves unchanged, then its outcome table, then
that it never uses MASK_KEY, then the statements. -/

namespace Sys2Proof.Machine

open Sys2Proof.Claims

/-! ### What DECODE leaves unchanged -/

/-- Reading a frame writes the receive side, ERR and CMD_ACTIVE alone. -/
theorem receiveFrame_frame (s : State) :
    let t := receiveFrame s
    t = { s with
      rxs := t.rxs, rxbuf := t.rxbuf, rxHdr := t.rxHdr, rxDlen := t.rxDlen, rxLen := t.rxLen, rxMkey := t.rxMkey,
      rxValid := t.rxValid, err := t.err, cmdActive := false } := by
  dsimp only
  rcases receiveFrame_cases s with ⟨c, h, -⟩ | ⟨-, -, n, bs, hdr, dlen, mkey, valid, c, h, -⟩ <;> rw [h] <;> rfl

/-- With no header to read DECODE changes only ERR and CMD_ACTIVE (R201). -/
theorem receiveFrame_of_not_headerRead {s : State} (hr : ¬ HeaderRead s) :
    receiveFrame s = s.raise (receiveFrame s).err := by
  rcases receiveFrame_cases s with ⟨c, h, -⟩ | ⟨hst, hlen, -⟩
  · rw [h]
    rfl
  · exact (hr ⟨hst, hlen⟩).elim

/-- DECODE takes bytes from the front of the stream only (R92). -/
theorem receiveFrame_rxs (s : State) : ∃ n, (receiveFrame s).rxs = s.rxs.drop n := by
  rcases receiveFrame_cases s with ⟨c, h, -⟩ | ⟨-, -, n, bs, hdr, dlen, mkey, valid, c, h, -⟩ <;> rw [h]
  · exact ⟨0, rfl⟩
  · exact ⟨n, rfl⟩

/-- RX_LEN of a frame that was read counts the bytes it wrote to RXBUF, which fit the register (R46). -/
theorem received_rxLen_toNat {n : Nat} {bs : List Byte} {hdr dlen : BitVec 16} {mkey : Word} {valid : Bool} {c : Status}
    {s : State} (hc : s.cfg.Legal) (hbs : bs.length ≤ s.cfg.rxCap) :
    (received n bs hdr dlen mkey valid c s).rxLen.toNat = bs.length := by
  obtain ⟨⟨-, hrx⟩, -⟩ := hc
  exact Nat.mod_eq_of_lt (by omega)

/-- No RXBUF byte from RX_LEN on is written, and none at all with no header read (R207). -/
theorem receiveFrame_readBuf {s : State} (hc : s.cfg.Legal) {i : Nat}
    (hi : HeaderRead s → (receiveFrame s).rxLen.toNat ≤ i) :
    (receiveFrame s).readBuf .rxbuf i = s.readBuf .rxbuf i := by
  rcases receiveFrame_cases s with ⟨c, h, -⟩ | ⟨hst, hlen, n, bs, hdr, dlen, mkey, valid, c, h, -, hbs, -⟩ <;> rw [h]
  · rfl
  · have hpast := hi ⟨hst, hlen⟩
    rw [h, received_rxLen_toNat hc hbs] at hpast
    change Memory.read (Memory.writeBytes s.rxbuf 0 bs) i = _
    rw [Memory.read_writeBytes, if_neg (by omega)]
    rfl

/-- A wire instruction writes the receive side, ERR and CMD_ACTIVE alone: it is DECODE of a longer stream (log 10). -/
theorem receiveHeader_frame (f r1 r2 r3 : Bool) (op : FrameOpcode) (s : State) :
    let t := receiveHeader f r1 r2 r3 op s
    t = { s with
      rxs := t.rxs, rxbuf := t.rxbuf, rxHdr := t.rxHdr, rxDlen := t.rxDlen, rxLen := t.rxLen, rxMkey := t.rxMkey,
      rxValid := t.rxValid, err := t.err, cmdActive := false } :=
  receiveFrame_frame { s with rxs := headerByte f r1 r2 r3 op :: s.rxs }

/-- A wire instruction writes no RXBUF byte from RX_LEN on. -/
theorem receiveHeader_readBuf {s : State} (hc : s.cfg.Legal) {f r1 r2 r3 : Bool} {op : FrameOpcode} {i : Nat}
    (hi : (receiveHeader f r1 r2 r3 op s).rxLen.toNat ≤ i) :
    (receiveHeader f r1 r2 r3 op s).readBuf .rxbuf i = s.readBuf .rxbuf i :=
  receiveFrame_readBuf (s := { s with rxs := headerByte f r1 r2 r3 op :: s.rxs }) hc fun _ => hi

/-! ### The outcome table -/

/-- A state shows the outcome of a row: its status, the bytes it consumed, and the receive registers. -/
structure ShowsOutcome (s t : State) (o : DecodeOutcome) : Prop where
  err : t.err = o.status
  rxs : t.rxs = s.rxs.drop o.consumed
  rxValid : t.rxValid = o.rxValid
  rxLen : t.rxLen.toNat = o.rxLen
  rxHdr : t.rxHdr = o.rxHdr
  rxDlen : t.rxDlen.toNat = o.rxDlen
  rxMkey : t.rxMkey = o.rxMkey

/-- The rows of the gate (R201): nothing is consumed and nothing but ERR changes. -/
theorem showsOutcome_raise (s : State) (c : Status) :
    ShowsOutcome s (s.raise c) ⟨c, 0, s.rxValid, s.rxLen.toNat, s.rxHdr, s.rxDlen.toNat, s.rxMkey⟩ :=
  ⟨rfl, rfl, rfl, rfl, rfl, rfl, rfl⟩

/-- The rows that end right after the header bytes (R203, R204). -/
theorem showsOutcome_headerTaken (s : State) (c : Status) :
    ShowsOutcome s ((headerTaken s).raise c) ⟨c, 2, false, 0, bigEndian16 (streamByte s 0) (streamByte s 1), 0, 0⟩ :=
  ⟨rfl, rfl, rfl, rfl, rfl, rfl, rfl⟩

/-- The row that ends before the mask key (R205). -/
theorem showsOutcome_lengthTaken (s : State) (c : Status) :
    ShowsOutcome s ((lengthTaken s).raise c)
      ⟨c, keyOffset s, false, 0, bigEndian16 (streamByte s 0) (streamByte s 1), declaredLength s, 0⟩ :=
  ⟨rfl, rfl, rfl, rfl, rfl, Nat.mod_eq_of_lt (declaredLength_lt s), rfl⟩

/-- The rows of a frame whose payload is read (R208, R209, R212), by the bytes taken and the code. -/
theorem PayloadReached.showsOutcome {s : State} (h : PayloadReached s) {c : Status} {consumed len : Nat}
    (herr : (receiveFrame s).err = c) (hrxs : (receiveFrame s).rxs = s.rxs.drop consumed)
    (hlen : (receiveFrame s).rxLen.toNat = len) :
    ShowsOutcome s (receiveFrame s) ⟨c, consumed, decide (c = .ok), len,
      bigEndian16 (streamByte s 0) (streamByte s 1), declaredLength s, frontKey s⟩ where
  err := herr
  rxs := hrxs
  rxValid := by rw [h.rxValid_eq, herr]
  rxLen := hlen
  rxHdr := by
    rw [receiveFrame_headerRead h.header, lengthPhase_rxHdr]
    rfl
  rxDlen := h.rxDlen_eq
  rxMkey := h.rxMkey_eq

/-- DECODE shows the first row of the table that applies (R213). -/
theorem receiveFrame_showsOutcome {s : State} (hc : s.cfg.Legal) : ShowsOutcome s (receiveFrame s) (decodeOutcome s) := by
  unfold decodeOutcome
  dsimp only
  split_ifs with hst hshort h127 hext hkey htrunc hlarge
  · rw [receiveFrame_notStarted hst]
    exact showsOutcome_raise s _
  · rw [receiveFrame_idle (Bool.eq_true_of_not_eq_false hst) hshort]
    exact showsOutcome_raise s _
  all_goals have hr : HeaderRead s := ⟨Bool.eq_true_of_not_eq_false hst, by omega⟩
  · rw [receiveFrame_headerRead hr, lengthPhase_unsupported h127]
    exact showsOutcome_headerTaken s _
  · have hfew : (headerTaken s).rxs.length < 2 := by
      rw [headerTaken_rxs_length]
      omega
    rw [receiveFrame_headerRead hr, lengthPhase_missing hext.1 hfew]
    exact showsOutcome_headerTaken s _
  all_goals have hlengths : b1Len7 (streamByte s 1) = 126 → 4 ≤ s.rxs.length := fun h126 => by omega
  · have hoff : frontHeader s - 4 = keyOffset s := by rw [frontHeader_of_masked hkey.1, Nat.add_sub_cancel]
    have hfew : (lengthTaken s).rxs.length < (lengthTaken s).cfg.maskAvailMin := by
      rw [lengthTaken_rxs_length, ← hoff]
      exact hkey.2
    rw [receiveFrame_lengthRead hr h127 hlengths, hkey.1, keyPhase_missing _ _ hfew, hoff]
    exact showsOutcome_lengthTaken s _
  all_goals
    have h : PayloadReached s := ⟨hc, hr, h127, hlengths, fun hm => by
      by_contra hfew
      exact hkey ⟨hm, by omega⟩⟩
    have hthere := h.frontHeader_le
    have herr := h.err_eq
    have hrxs := h.rxs_eq
    have hlen := h.rxLen_eq
  · refine h.showsOutcome (by rw [herr, if_pos htrunc]) ?_ (by omega)
    rw [hrxs, List.drop_length, List.drop_eq_nil_of_le (by omega)]
  · rw [if_neg htrunc, if_pos hlarge] at herr
    rw [min_eq_right hlarge.le] at hrxs hlen htrunc
    exact h.showsOutcome herr hrxs (by omega)
  · rw [if_neg htrunc, if_neg hlarge] at herr
    rw [min_eq_left (not_lt.1 hlarge)] at hrxs hlen htrunc
    exact h.showsOutcome herr hrxs (by omega)

/-! ### MASK_KEY and DECODE, RX_MKEY and ENCODE -/

/-- The same state with another MASK_KEY; an abbreviation, so that a phase is seen to test both states alike. -/
abbrev State.withMaskKey (k : Word) (s : State) : State := { s with maskKey := k }

/-- The payload phase neither reads nor writes MASK_KEY. -/
theorem payloadPhase_withMaskKey (key : Word) (len : Nat) (k : Word) (s : State) :
    payloadPhase key len (s.withMaskKey k) = (payloadPhase key len s).withMaskKey k := by
  simp only [payloadPhase_eq, apply_ite (State.withMaskKey k)]
  rfl

/-- The key phase neither reads nor writes MASK_KEY: a masked frame brings its own key. -/
theorem keyPhase_withMaskKey (masked : Bool) (len : Nat) (k : Word) (s : State) :
    keyPhase masked len (s.withMaskKey k) = (keyPhase masked len s).withMaskKey k := by
  unfold keyPhase
  dsimp only
  split_ifs
  · rfl
  · split
    · next k0 k1 k2 k3 rest _ =>
      exact payloadPhase_withMaskKey _ len k { s with rxs := rest, rxMkey := packKey k0 k1 k2 k3 }
    · rfl
  · exact payloadPhase_withMaskKey 0 len k s

/-- The length phase neither reads nor writes MASK_KEY. -/
theorem lengthPhase_withMaskKey (b1 : Byte) (k : Word) (s : State) :
    lengthPhase b1 (s.withMaskKey k) = (lengthPhase b1 s).withMaskKey k := by
  unfold lengthPhase
  dsimp only
  split_ifs
  · rfl
  · split
    · next e0 e1 rest _ =>
      exact keyPhase_withMaskKey _ _ k { s with rxs := rest, rxDlen := BitVec.ofNat 16 (extendedLength e0 e1) }
    · rfl
  · exact keyPhase_withMaskKey _ _ k { s with rxDlen := BitVec.ofNat 16 (b1Len7 b1) }

/-- DECODE neither reads nor writes MASK_KEY (R175). -/
theorem receiveFrame_withMaskKey (k : Word) (s : State) :
    receiveFrame (s.withMaskKey k) = (receiveFrame s).withMaskKey k := by
  unfold receiveFrame
  dsimp only
  split_ifs
  · split
    · next b0 b1 rest _ => exact lengthPhase_withMaskKey b1 k (State.retire b0 b1 { s with rxs := rest })
    · rfl
  · rfl

/-- ENCODE neither reads nor writes RX_MKEY (R175). -/
theorem exec_encode_withRxMkey {s t : State} {op : FrameOpcode} {len : Nat} (k : Word)
    (h : exec (.encode op len) s = .next t) :
    exec (.encode op len) { s with rxMkey := k } = .next { t with rxMkey := k } := by
  change execEncode op len s = _ at h
  rcases execEncode_cases op len s with ⟨hb, he⟩ | ⟨hb, hc, he⟩ | ⟨-, -, j, -, he⟩ | ⟨hb, hc, p, -, hp, he⟩ <;>
    rw [he] at h <;> cases h
  · exact exec_encode_busy hb
  · exact exec_encode_tooLarge hb hc
  · exact exec_encode_queued hb hc hp

end Sys2Proof.Machine

namespace Sys2Proof.Proofs

open Sys2Proof.Machine Sys2Proof.Claims

/-- Settles O31: the table's rows, taken in order, are the endings of the gate, of the length phase, of the key phase and of
the payload phase (`receiveFrame_showsOutcome`). -/
theorem decodeFollowsTheOutcomeTable : Obligations.DecodeFollowsTheOutcomeTable := by
  unfold Obligations.DecodeFollowsTheOutcomeTable
  intro s hc
  obtain ⟨herr, hrxs, hvalid, hlen, hhdr, hdlen, hmkey⟩ := receiveFrame_showsOutcome hc
  exact ⟨_, exec_decode s, herr, hrxs, hvalid, hlen, hhdr, hdlen, hmkey⟩

/-- Settles O32: of the two things DECODE can do, stopping at its gate changes ERR alone, and a frame that is read changes the
receive side, RXBUF below RX_LEN only. -/
theorem decodeFrame : Obligations.DecodeFrame := by
  unfold Obligations.DecodeFrame
  intro s t h
  rw [exec_decode] at h
  cases h
  obtain ⟨n, hn⟩ := receiveFrame_rxs s
  refine ⟨receiveFrame_frame s, fun i hi hc => receiveFrame_readBuf hc hi, receiveFrame_of_not_headerRead, s.rxs.take n, ?_⟩
  rw [hn, List.take_append_drop]

/-- Settles O36: each phase of DECODE commutes with a change of MASK_KEY (`receiveFrame_withMaskKey`), and each case of ENCODE
with a change of RX_MKEY. -/
theorem theTwoMaskKeysAreIndependent : Obligations.TheTwoMaskKeysAreIndependent := by
  unfold Obligations.TheTwoMaskKeysAreIndependent
  refine ⟨fun s t k h => ?_, fun s t op len k => exec_encode_withRxMkey k⟩
  rw [exec_decode] at h ⊢
  cases h
  exact congrArg _ (receiveFrame_withMaskKey k s)

end Sys2Proof.Proofs
end

section
/-! PROOFS. What a command and a step may write (10_state R37 to R43, 20_memory section 3, 60_exceptions R377): first the
fields a command leaves and the flags it moves, then where a command stops, then a step as a command, power-on or neither, then
the statements. -/

namespace Sys2Proof.Machine

open Sys2Proof.Claims

/-! ### What a command leaves -/

/-- What a command leaves: the host's side always, every other field named here unless the command is the one that writes it
(R42, R43, R49 to R55). -/
structure CommandLeaves (i : Instr) (s t : State) : Prop where
  pin : t.pin = s.pin
  keyin : t.keyin = s.keyin
  keyStage : t.keyStage = s.keyStage
  maskEn : t.maskEn = s.maskEn
  cfg : t.cfg = s.cfg
  pending : t.pending = s.pending
  hostReads : t.hostReads = s.hostReads
  txbuf : (∀ op len, i ≠ .encode op len) → t.txbuf = s.txbuf
  rxbuf : ¬ ReadsStream i → t.rxbuf = s.rxbuf
  accept : (∀ n, i ≠ .deriveKey n) → t.accept = s.accept
  rxs : ¬ ReadsStream i → t.rxs = s.rxs
  txs : i ≠ .flush → t.txs = s.txs
  maskKey : i ≠ .setMaskKey → i ≠ .clear → t.maskKey = s.maskKey

/-- A wire instruction reads the stream. -/
theorem readsStream_frameInstr (op : FrameOpcode) (f r1 r2 r3 : Bool) : ReadsStream (frameInstr op f r1 r2 r3) :=
  .inr ⟨op, f, r1, r2, r3, rfl⟩

/-- An instruction that reads the stream leaves all but the receive side. -/
theorem commandLeaves_of_readsStream {i : Instr} {s t : State} (hi : ReadsStream i)
    (ht : t = { s with
      rxs := t.rxs, rxbuf := t.rxbuf, rxHdr := t.rxHdr, rxDlen := t.rxDlen, rxLen := t.rxLen, rxMkey := t.rxMkey,
      rxValid := t.rxValid, err := t.err, cmdActive := false }) : CommandLeaves i s t := by
  rw [ht]
  exact ⟨rfl, rfl, rfl, rfl, rfl, rfl, rfl, fun _ => rfl, fun hne => absurd hi hne, fun _ => rfl, fun hne => absurd hi hne,
    fun _ => rfl, fun _ _ => rfl⟩

/-- Every command leaves what is not its own to write. -/
theorem exec_leaves {i : Instr} {s t : State} (h : exec i s = .next t) : CommandLeaves i s t := by
  rcases exec_next h with ⟨op, f, r1, r2, r3, rfl, rfl⟩ | ⟨rfl, rfl⟩ | ⟨c, -, rfl⟩ | ⟨-, rfl⟩ | ⟨op, p, rfl, -, -, -, rfl⟩ |
    ⟨f, rfl, -, -, -, -, rfl⟩ | ⟨rfl, rfl⟩ | ⟨key, rfl, -, -, rfl⟩ | ⟨rfl, rfl⟩
  · exact commandLeaves_of_readsStream (readsStream_frameInstr op f r1 r2 r3) (receiveHeader_frame f r1 r2 r3 op s)
  · exact commandLeaves_of_readsStream (.inl rfl) (receiveFrame_frame s)
  · exact ⟨rfl, rfl, rfl, rfl, rfl, rfl, rfl, fun _ => rfl, fun _ => rfl, fun _ => rfl, fun _ => rfl, fun _ => rfl,
      fun _ _ => rfl⟩
  · exact ⟨rfl, rfl, rfl, rfl, rfl, rfl, rfl, fun _ => rfl, fun _ => rfl, fun _ => rfl, fun _ => rfl, fun _ => rfl,
      fun _ _ => rfl⟩
  · exact ⟨rfl, rfl, rfl, rfl, rfl, rfl, rfl, fun hne => absurd rfl (hne op _), fun _ => rfl, fun _ => rfl, fun _ => rfl,
      fun _ => rfl, fun _ _ => rfl⟩
  · obtain ⟨sent, answers, draws, c, hf⟩ := sendFrame_flushed f s
    rw [hf]
    exact ⟨rfl, rfl, rfl, rfl, rfl, rfl, rfl, fun _ => rfl, fun _ => rfl, fun _ => rfl, fun _ => rfl, fun hne => absurd rfl hne,
      fun _ _ => rfl⟩
  · exact ⟨rfl, rfl, rfl, rfl, rfl, rfl, rfl, fun _ => rfl, fun _ => rfl, fun _ => rfl, fun _ => rfl, fun _ => rfl,
      fun hne => absurd rfl hne⟩
  · exact ⟨rfl, rfl, rfl, rfl, rfl, rfl, rfl, fun _ => rfl, fun _ => rfl, fun hne => absurd rfl (hne _), fun _ => rfl,
      fun _ => rfl, fun _ _ => rfl⟩
  · exact ⟨rfl, rfl, rfl, rfl, rfl, rfl, rfl, fun _ => rfl, fun _ => rfl, fun _ => rfl, fun _ => rfl, fun _ => rfl,
      fun _ hne => absurd rfl hne⟩

/-- Every command only appends to the transmit log (R95). -/
theorem exec_txs {i : Instr} {s t : State} (h : exec i s = .next t) : ∃ sent, t.txs = s.txs ++ sent := by
  by_cases hi : i = .flush
  · subst hi
    rcases execFlush_cases s with ⟨-, he⟩ | ⟨-, -, he⟩ | ⟨-, -, j, -, he⟩ | ⟨-, -, f, -, -, he⟩ <;>
      cases he.symm.trans h
    · exact ⟨[], (List.append_nil _).symm⟩
    · exact ⟨[], (List.append_nil _).symm⟩
    · obtain ⟨sent, answers, draws, c, hf⟩ := sendFrame_flushed f s
      exact ⟨sent, by rw [hf]; rfl⟩
  · exact ⟨[], by rw [(exec_leaves h).txs hi, List.append_nil]⟩

/-! ### Flags through a command -/

/-- A flag before and after: kept, raised where `P` holds, or lowered where `Q` holds. -/
def FlagMove (before after : Bool) (P Q : Prop) : Prop :=
  after = before ∨ (P ∧ after = true) ∨ (Q ∧ after = false)

/-- Where a flag went from 0 to 1 it was raised. -/
theorem FlagMove.raised {a b : Bool} {P Q : Prop} (h : FlagMove a b P Q) (ha : a = false) (hb : b = true) : P := by
  obtain hkept | ⟨hp, -⟩ | ⟨-, hlow⟩ := h
  · cases (hb.symm.trans hkept).trans ha
  · exact hp
  · cases hb.symm.trans hlow

/-- Where a flag went from 1 to 0 it was lowered. -/
theorem FlagMove.lowered {a b : Bool} {P Q : Prop} (h : FlagMove a b P Q) (ha : a = true) (hb : b = false) : Q := by
  obtain hkept | ⟨-, hhigh⟩ | ⟨hq, -⟩ := h
  · cases (hb.symm.trans hkept).trans ha
  · cases hb.symm.trans hhigh
  · exact hq

/-- Weaker conditions do for the same move. -/
theorem FlagMove.imp {a b : Bool} {P Q P' Q' : Prop} (h : FlagMove a b P Q) (hp : P → P') (hq : Q → Q') :
    FlagMove a b P' Q' :=
  h.imp_right (Or.imp (And.imp_left hp) (And.imp_left hq))

/-- What moves TX_BUSY in a command (R37). -/
theorem exec_txBusy {i : Instr} {s t : State} (h : exec i s = .next t) :
    FlagMove s.txBusy t.txBusy ((∃ op len, i = .encode op len) ∧ t.err = .ok) (i = .flush ∨ i = .clear) := by
  rcases exec_next h with ⟨op, f, r1, r2, r3, -, rfl⟩ | ⟨-, rfl⟩ | ⟨c, -, rfl⟩ | ⟨-, rfl⟩ | ⟨op, p, hi, -, -, -, rfl⟩ |
    ⟨f, hi, -, -, -, -, rfl⟩ | ⟨-, rfl⟩ | ⟨key, -, -, -, rfl⟩ | ⟨hi, rfl⟩
  · exact .inl (by rw [receiveHeader_frame])
  · exact .inl (by rw [receiveFrame_frame])
  · exact .inl rfl
  · exact .inl rfl
  · exact .inr (.inl ⟨⟨⟨op, _, hi⟩, rfl⟩, rfl⟩)
  · obtain ⟨sent, answers, draws, c, hf⟩ := sendFrame_flushed f s
    exact .inr (.inr ⟨.inl hi, by rw [hf]; rfl⟩)
  · exact .inl rfl
  · exact .inl rfl
  · exact .inr (.inr ⟨.inr hi, rfl⟩)

/-- Reading a frame raises RX_VALID only where it ends OK (R38, R212). -/
theorem receiveFrame_rxValid (s : State) :
    FlagMove s.rxValid (receiveFrame s).rxValid ((receiveFrame s).err = .ok) True := by
  rcases receiveFrame_cases s with ⟨c, h, -⟩ | ⟨-, -, n, bs, hdr, dlen, mkey, valid, c, h, -, -, hvalid⟩ <;> rw [h]
  · exact .inl rfl
  · cases valid with
    | false => exact .inr (.inr ⟨trivial, rfl⟩)
    | true => exact .inr (.inl ⟨(hvalid rfl).1, rfl⟩)

/-- What moves RX_VALID in a command (R38). -/
theorem exec_rxValid {i : Instr} {s t : State} (h : exec i s = .next t) :
    FlagMove s.rxValid t.rxValid (ReadsStream i ∧ t.err = .ok) (ReadsStream i ∨ i = .drain ∨ i = .clear) := by
  rcases exec_next h with ⟨op, f, r1, r2, r3, rfl, rfl⟩ | ⟨rfl, rfl⟩ | ⟨c, -, rfl⟩ | ⟨hi, rfl⟩ | ⟨op, p, -, -, -, -, rfl⟩ |
    ⟨f, -, -, -, -, -, rfl⟩ | ⟨-, rfl⟩ | ⟨key, -, -, -, rfl⟩ | ⟨hi, rfl⟩
  · have hi := readsStream_frameInstr op f r1 r2 r3
    exact (receiveFrame_rxValid { s with rxs := headerByte f r1 r2 r3 op :: s.rxs }).imp (fun he => ⟨hi, he⟩)
      fun _ => .inl hi
  · exact (receiveFrame_rxValid s).imp (fun he => ⟨.inl rfl, he⟩) fun _ => .inl (.inl rfl)
  · exact .inl rfl
  · exact .inr (.inr ⟨.inr (.inl hi), rfl⟩)
  · exact .inl rfl
  · obtain ⟨sent, answers, draws, c, hf⟩ := sendFrame_flushed f s
    exact .inl (by rw [hf]; rfl)
  · exact .inl rfl
  · exact .inl rfl
  · exact .inr (.inr ⟨.inr (.inr hi), rfl⟩)

/-- What moves MASK_FRESH in a command (R39). -/
theorem exec_maskFresh {i : Instr} {s t : State} (h : exec i s = .next t) :
    FlagMove s.maskFresh t.maskFresh (i = .setMaskKey ∧ t.err = .ok)
      (((∃ op len, i = .encode op len) ∧ s.maskEn = true) ∨ i = .clear) := by
  rcases exec_next h with ⟨op, f, r1, r2, r3, -, rfl⟩ | ⟨-, rfl⟩ | ⟨c, -, rfl⟩ | ⟨-, rfl⟩ | ⟨op, p, hi, -, -, -, rfl⟩ |
    ⟨f, -, -, -, -, -, rfl⟩ | ⟨hi, rfl⟩ | ⟨key, -, -, -, rfl⟩ | ⟨hi, rfl⟩
  · exact .inl (by rw [receiveHeader_frame])
  · exact .inl (by rw [receiveFrame_frame])
  · exact .inl rfl
  · exact .inl rfl
  · rw [State.finish_maskFresh, State.queueFrame_maskFresh]
    split_ifs with hm
    · exact .inr (.inr ⟨.inl ⟨⟨op, _, hi⟩, hm⟩, rfl⟩)
    · exact .inl rfl
  · obtain ⟨sent, answers, draws, c, hf⟩ := sendFrame_flushed f s
    exact .inl (by rw [hf]; rfl)
  · exact .inr (.inl ⟨⟨hi, rfl⟩, rfl⟩)
  · exact .inl rfl
  · exact .inr (.inr ⟨.inr hi, rfl⟩)

/-! ### Where a command stops -/

/-- A command answers a next state, or stops at an unwritten byte that it reads (R88, R377). -/
theorem exec_next_or_unwritten (i : Instr) (s : State) :
    (∃ t, exec i s = .next t) ∨
      ∃ b j, ReadsByte i s b j ∧ exec i s = .fault (.unwritten b j) ∧ s.readBuf b j = none := by
  rcases instr_cases i with ⟨op, f, r1, r2, r3, rfl⟩ | hi | rfl | rfl | ⟨op, len, rfl⟩ | rfl | rfl | ⟨n, rfl⟩ | rfl
  · exact .inl ⟨_, exec_frameInstr op f r1 r2 r3 s⟩
  · exact .inl ⟨_, exec_of_mem_reservedCommands hi s⟩
  · exact .inl ⟨_, exec_decode s⟩
  · exact .inl ⟨_, exec_drain s⟩
  · rcases execEncode_cases op len s with ⟨-, he⟩ | ⟨-, -, he⟩ | ⟨-, -, j, hj, he⟩ | ⟨-, -, p, -, -, he⟩
    · exact .inl ⟨_, he⟩
    · exact .inl ⟨_, he⟩
    · obtain ⟨-, hlt, hnone, -⟩ := Memory.readBytes_eq_error hj
      exact .inr ⟨.pin, j, .inl ⟨op, len, rfl, rfl, by omega⟩, he, hnone⟩
    · exact .inl ⟨_, he⟩
  · rcases execFlush_cases s with ⟨-, he⟩ | ⟨-, -, he⟩ | ⟨-, -, j, hj, he⟩ | ⟨-, -, f, -, -, he⟩
    · exact .inl ⟨_, he⟩
    · exact .inl ⟨_, he⟩
    · obtain ⟨-, hlt, hnone, -⟩ := Memory.readBytes_eq_error hj
      exact .inr ⟨.txbuf, j, .inr (.inr ⟨rfl, rfl, by omega⟩), he, hnone⟩
    · exact .inl ⟨_, he⟩
  · exact .inl ⟨_, exec_setMaskKey s⟩
  · rcases execDeriveKey_cases n s with ⟨-, he⟩ | ⟨-, j, hj, he⟩ | ⟨-, key, -, -, he⟩
    · exact .inl ⟨_, he⟩
    · obtain ⟨-, hlt, hnone, -⟩ := Memory.readBytes_eq_error hj
      exact .inr ⟨.keyin, j, .inr (.inl ⟨n, rfl, rfl, by omega⟩), he, hnone⟩
    · exact .inl ⟨_, he⟩
  · exact .inl ⟨_, exec_clear s⟩

/-- Where the send slot meets its invariant FLUSH does not stop: a queued frame is written whole (R59). -/
theorem exec_flush_of_outboundOk {s : State} (h : s.OutboundOk) : ∃ t, exec .flush s = .next t := by
  cases hst : s.started with
  | false => exact ⟨_, exec_flush_notStarted hst⟩
  | true =>
    cases hb : s.txBusy with
    | false => exact ⟨_, exec_flush_idle hst hb⟩
    | true =>
      obtain ⟨op, m, k, p, -, hr⟩ := h.busyFrame hb
      exact ⟨_, exec_flush_queued hst hb hr⟩

/-! ### A step: a command, power-on, or neither -/

/-- What a command does is what it does in the idle state before it: it does not read CMD_ACTIVE (R41). -/
theorem exec_beginCommand (i : Instr) (s : State) : exec i s.beginCommand = exec i s :=
  exec_withOutcome i s.err true s

/-- A step runs a command on the state with the input taken, or is power-on, or writes the host's side and the receive stream
alone. -/
theorem step_command_or_powerOn {s t : State} (h : step s = .next t) :
    (∃ i rest, NextIsCommand s i ∧ exec i { s with pending := rest } = .next t) ∨
    (∃ rest, NextIsPowerOn s ∧ t = State.powerOn { s with pending := rest }) ∨
    t = { s with
      pending := t.pending, hostReads := t.hostReads, rxs := t.rxs, maskEn := t.maskEn, started := t.started,
      keyStage := t.keyStage, keyin := t.keyin, pin := t.pin } := by
  rcases step_cases h with ⟨-, rfl⟩ | ⟨e, rest, hp, ⟨w, off, v, -, rfl⟩ | ⟨w, off, v, rfl, -, hw⟩ | ⟨bs, -, rfl⟩ |
    ⟨rfl, rfl⟩⟩
  · exact .inr (.inr rfl)
  · exact .inr (.inr rfl)
  · rcases hw with rfl | rfl | ⟨-, -, rfl⟩ | ⟨j, b, -, rfl⟩ | ⟨j, b, -, rfl⟩ | ⟨rfl, rfl, hx⟩
    · exact .inr (.inr rfl)
    · exact .inr (.inr rfl)
    · exact .inr (.inr rfl)
    · exact .inr (.inr rfl)
    · exact .inr (.inr rfl)
    · rw [exec_beginCommand] at hx
      exact .inl ⟨_, rest, ⟨v, rest, hp, rfl⟩, hx⟩
  · exact .inr (.inr rfl)
  · exact .inr (.inl ⟨rest, ⟨rest, hp⟩, rfl⟩)

/-- A command that comes from the bus and reads the stream is DECODE: the decoder reads no wire instruction from a word. -/
theorem eq_decode_of_readsStream {s : State} {i : Instr} (hc : NextIsCommand s i) (hi : ReadsStream i) : i = .decode := by
  obtain hdecode | ⟨op, f, r1, r2, r3, rfl⟩ := hi
  · exact hdecode
  · obtain ⟨w, -, -, hw⟩ := hc
    exact (decodeCommand_ne_frame w op f r1 r2 r3 hw).elim

/-- What moves TX_BUSY in a step (R37). -/
theorem step_txBusy {s t : State} (h : step s = .next t) :
    FlagMove s.txBusy t.txBusy ((∃ op len, NextIsCommand s (.encode op len)) ∧ t.err = .ok)
      (NextIsCommand s .flush ∨ NextIsCommand s .clear ∨ NextIsPowerOn s) := by
  rcases step_command_or_powerOn h with ⟨i, rest, hc, hx⟩ | ⟨rest, hpow, rfl⟩ | ht
  · refine (exec_txBusy hx).imp ?_ ?_
    · rintro ⟨⟨op, len, rfl⟩, herr⟩
      exact ⟨⟨op, len, hc⟩, herr⟩
    · rintro (rfl | rfl)
      · exact .inl hc
      · exact .inr (.inl hc)
  · exact .inr (.inr ⟨.inr (.inr hpow), rfl⟩)
  · exact .inl (by rw [ht])

/-- What moves RX_VALID in a step (R38). -/
theorem step_rxValid {s t : State} (h : step s = .next t) :
    FlagMove s.rxValid t.rxValid (NextIsCommand s .decode ∧ t.err = .ok)
      (NextIsCommand s .decode ∨ NextIsCommand s .drain ∨ NextIsCommand s .clear ∨ NextIsPowerOn s) := by
  rcases step_command_or_powerOn h with ⟨i, rest, hc, hx⟩ | ⟨rest, hpow, rfl⟩ | ht
  · refine (exec_rxValid hx).imp ?_ ?_
    · rintro ⟨hi, herr⟩
      exact ⟨eq_decode_of_readsStream hc hi ▸ hc, herr⟩
    · rintro (hi | rfl | rfl)
      · exact .inl (eq_decode_of_readsStream hc hi ▸ hc)
      · exact .inr (.inl hc)
      · exact .inr (.inr (.inl hc))
  · exact .inr (.inr ⟨.inr (.inr (.inr hpow)), rfl⟩)
  · exact .inl (by rw [ht])

/-- What moves MASK_FRESH in a step (R39). -/
theorem step_maskFresh {s t : State} (h : step s = .next t) :
    FlagMove s.maskFresh t.maskFresh (NextIsCommand s .setMaskKey ∧ t.err = .ok)
      (((∃ op len, NextIsCommand s (.encode op len)) ∧ s.maskEn = true) ∨ NextIsCommand s .clear ∨ NextIsPowerOn s) := by
  rcases step_command_or_powerOn h with ⟨i, rest, hc, hx⟩ | ⟨rest, hpow, rfl⟩ | ht
  · refine (exec_maskFresh hx).imp ?_ ?_
    · rintro ⟨rfl, herr⟩
      exact ⟨hc, herr⟩
    · rintro (⟨⟨op, len, rfl⟩, hm⟩ | rfl)
      · exact .inl ⟨⟨op, len, hc⟩, hm⟩
      · exact .inr (.inl hc)
  · exact .inr (.inr ⟨.inr (.inr hpow), rfl⟩)
  · exact .inl (by rw [ht])

/-- What changes MASK_KEY in a step (R42). -/
theorem step_maskKey {s t : State} (h : step s = .next t) (hne : t.maskKey ≠ s.maskKey) :
    NextIsCommand s .setMaskKey ∨ NextIsCommand s .clear ∨ NextIsPowerOn s := by
  rcases step_command_or_powerOn h with ⟨i, rest, hc, hx⟩ | ⟨rest, hpow, rfl⟩ | ht
  · by_cases hset : i = .setMaskKey
    · exact .inl (hset ▸ hc)
    · by_cases hclear : i = .clear
      · exact .inr (.inl (hclear ▸ hc))
      · exact (hne ((exec_leaves hx).maskKey hset hclear)).elim
  · exact .inr (.inr hpow)
  · exact (hne (by rw [ht])).elim

/-- What changes KEY_STAGE in a step (R43). -/
theorem step_keyStage {s t : State} (h : step s = .next t) (hne : t.keyStage ≠ s.keyStage) :
    (∃ v rest, s.pending = .write 4 0x010#19 v :: rest ∧ t.keyStage = v) ∨ NextIsPowerOn s := by
  rcases step_cases h with ⟨-, rfl⟩ | ⟨e, rest, hp, ⟨w, off, v, -, rfl⟩ | ⟨w, off, v, rfl, -, hw⟩ | ⟨bs, -, rfl⟩ |
    ⟨rfl, rfl⟩⟩
  · exact absurd rfl hne
  · exact absurd rfl hne
  · rcases hw with rfl | rfl | ⟨rfl, rfl, rfl⟩ | ⟨j, b, -, rfl⟩ | ⟨j, b, -, rfl⟩ | ⟨-, -, hx⟩
    · exact absurd rfl hne
    · exact absurd rfl hne
    · exact .inl ⟨v, rest, hp, rfl⟩
    · exact absurd rfl hne
    · exact absurd rfl hne
    · exact absurd (exec_leaves hx).keyStage hne
  · exact absurd rfl hne
  · exact .inr ⟨rest, hp⟩

/-- Every step only appends to the transmit log (R95). -/
theorem step_txs {s t : State} (h : step s = .next t) : ∃ sent, t.txs = s.txs ++ sent := by
  rcases step_command_or_powerOn h with ⟨i, rest, -, hx⟩ | ⟨rest, -, rfl⟩ | ht
  · exact exec_txs (s := { s with pending := rest }) hx
  · exact ⟨[], (List.append_nil _).symm⟩
  · exact ⟨[], by rw [ht]; exact (List.append_nil _).symm⟩

end Sys2Proof.Machine

namespace Sys2Proof.Proofs

open Sys2Proof.Machine

/-- Settles O17: each flag moves in a step only by the named inputs (`step_txBusy`, `step_rxValid`, `step_maskFresh`). -/
theorem statusFlagsHaveTheirSetters : Obligations.StatusFlagsHaveTheirSetters := by
  unfold Obligations.StatusFlagsHaveTheirSetters
  exact fun s t h => ⟨(step_txBusy h).raised, (step_txBusy h).lowered, (step_rxValid h).raised, (step_rxValid h).lowered,
    (step_maskFresh h).raised, (step_maskFresh h).lowered⟩

/-- Settles O22: no command but SET_MASK_KEY and CLEAR writes MASK_KEY, none KEY_STAGE, and of the other inputs only the host's
write of KEY_STAGE and power-on reach them. -/
theorem maskKeysHaveTheirWriters : Obligations.MaskKeysHaveTheirWriters := by
  unfold Obligations.MaskKeysHaveTheirWriters
  exact fun s t h => ⟨step_maskKey h, step_keyStage h⟩

/-- Settles O42: a command appends to the log (`exec_txs`), and every other input keeps it. -/
theorem transmitLogOnlyGrows : Obligations.TransmitLogOnlyGrows := by
  unfold Obligations.TransmitLogOnlyGrows
  exact fun s t => step_txs

/-- Settles O43: the two streams among what a command leaves (`exec_leaves`). -/
theorem streamsHaveTheirUsers : Obligations.StreamsHaveTheirUsers := by
  unfold Obligations.StreamsHaveTheirUsers
  exact fun i s t h => ⟨(exec_leaves h).txs, (exec_leaves h).rxs⟩

/-- Settles O44: the buffers and the host's side among what a command leaves (`exec_leaves`). -/
theorem buffersHaveTheirWriters : Obligations.BuffersHaveTheirWriters := by
  unfold Obligations.BuffersHaveTheirWriters
  intro i s t h
  obtain ⟨hpin, hkeyin, hstage, hmaskEn, hcfg, hpending, hreads, htxbuf, hrxbuf, haccept, -, -, -⟩ := exec_leaves h
  exact ⟨hpin, hkeyin, hstage, hmaskEn, hcfg, hpending, hreads, htxbuf, hrxbuf, haccept⟩

/-- Settles O54: of the instructions three read a buffer, and each stops at the first unwritten byte of its run
(`exec_next_or_unwritten`); under the invariant FLUSH reads a frame that is written whole. -/
theorem commandsStopOnlyAtUnwrittenBytes : Obligations.CommandsStopOnlyAtUnwrittenBytes := by
  unfold Obligations.CommandsStopOnlyAtUnwrittenBytes
  exact ⟨exec_next_or_unwritten, fun s => exec_flush_of_outboundOk⟩

end Sys2Proof.Proofs
end

section
/-! PROOFS. The host window at its edges (20_memory R81, R82, R102; 70_reset_and_hazards R420): first where an access is illegal
or reaches a reserved offset, region by region, then what the bus answers there, then the four statements. -/

namespace Sys2Proof.Machine

open Sys2Proof.Claims

/-! ### Illegal targets -/

/-- An access to the register space is illegal unless it is 4 aligned bytes (R82). -/
theorem registerSpace_eq_illegal (width a : Nat) : registerSpace width a = .illegal ↔ ¬ (width = 4 ∧ a % 4 = 0) := by
  unfold registerSpace
  split_ifs with h
  · split <;> simp [h]
  · simp [h]

/-- An access to a buffer window is illegal unless it is 1 byte (R82, log 7). -/
theorem bufferWindow_eq_illegal (c : Config) (b : Buffer) (width i : Nat) :
    bufferWindow c b width i = .illegal ↔ width ≠ 1 := by
  unfold bufferWindow
  split_ifs with h <;> simp [h]

/-- An access to a reserved range is illegal unless it is 1 byte or 4 aligned bytes (R82). -/
theorem reservedRange_eq_illegal (width a : Nat) :
    reservedRange width a = .illegal ↔ ¬ (width = 1 ∨ (width = 4 ∧ a % 4 = 0)) := by
  unfold reservedRange
  split_ifs with h <;> simp [h]

/-- The map calls illegal exactly what is no legal access (R82). -/
theorem target_eq_illegal (c : Config) (width : Nat) (off : Addr) :
    target c width off = .illegal ↔ ¬ LegalAccess width off := by
  unfold target LegalAccess WordRange
  dsimp only
  split_ifs <;>
  · simp only [registerSpace_eq_illegal, bufferWindow_eq_illegal, reservedRange_eq_illegal]
    omega

/-- A host read is a bus error exactly at an illegal target (R82). -/
theorem hostRead_eq_hostBusError (width : Nat) (off : Addr) (s : State) :
    hostRead width off s = .fault .hostBusError ↔ target s.cfg width off = .illegal := by
  unfold hostRead
  split
  · next r h => simp [h]
  · next h => simp [h]
  · next b i h => split <;> simp [h]
  · next h => simp [h]

/-- No command ends in a bus error: it answers a next state or stops at an unwritten byte. -/
theorem exec_ne_hostBusError (i : Instr) (s : State) : exec i s ≠ .fault .hostBusError := by
  intro h
  obtain ⟨t, ht⟩ | ⟨b, j, -, hf, -⟩ := exec_next_or_unwritten i s
  · cases ht.symm.trans h
  · cases hf.symm.trans h

/-- A host write of a register is no bus error. -/
theorem writeRegister_ne_hostBusError (r : Register) (v : Word) (s : State) :
    writeRegister runCommand r v s ≠ .fault .hostBusError := by
  cases r
  case cmd => exact exec_ne_hostBusError _ _
  all_goals nofun

/-- A host write is a bus error exactly at an illegal target (R82). -/
theorem hostWrite_eq_hostBusError (width : Nat) (off : Addr) (v : Word) (s : State) :
    hostWrite runCommand width off v s = .fault .hostBusError ↔ target s.cfg width off = .illegal := by
  unfold hostWrite
  split
  · next r h => simp [h, writeRegister_ne_hostBusError]
  · next h => simp [h]
  · next b i h => simp [h]
  · next h => simp [h]

/-! ### Reserved targets -/

/-- In the reserved ranges of the map an access is one of a reserved range (R81). -/
theorem target_reservedRange (c : Config) (width : Nat) {off : Addr} (h : ReservedRange off.toNat) :
    target c width off = reservedRange width off.toNat := by
  unfold target
  obtain ⟨hlow, hhigh⟩ | ⟨hlow, hhigh⟩ | hlow := h <;>
    simp (disch := omega) only [if_pos, if_neg]

/-- Past a buffer's capacity its window is a reserved one of 1-byte accesses (R81). -/
theorem target_windowTail {c : Config} {off : Addr} (h : WindowTail c off.toNat) :
    target c 1 off = .reserved := by
  have tail (b : Buffer) (hlow : windowStart b + bufferCapacity c b ≤ off.toNat)
      (hhigh : off.toNat < windowStart b + windowSize b) : target c 1 off = .reserved := by
    rw [target_bufferWindow c 1 (b := b) (i := off.toNat - windowStart b) (by omega) (by omega),
      bufferWindow_reserved (by omega)]
  obtain ⟨hlow, hhigh⟩ | ⟨hlow, hhigh⟩ | ⟨hlow, hhigh⟩ | ⟨hlow, hhigh⟩ := h
  · exact tail .keyin hlow hhigh
  · exact tail .pin hlow hhigh
  · exact tail .txbuf hlow hhigh
  · exact tail .rxbuf hlow hhigh

/-- A legal access of a reserved offset reaches nothing (R81, R82). -/
theorem target_reservedAccess {c : Config} {width : Nat} {off : Addr} (h : ReservedAccess c width off) :
    target c width off = .reserved := by
  obtain ⟨hw, hal, hlow, hlt⟩ | ⟨hw, hrange⟩ | ⟨rfl, htail⟩ := h
  · rw [target_registerSpace c width hlt, registerSpace_reserved ⟨hw, hal⟩ hlow]
  · rw [target_reservedRange c width hrange, reservedRange_reserved hw]
  · exact target_windowTail htail

/-! ### Accesses while a command is active -/

/-- While CMD_ACTIVE = 1 a read other than one of STATUS is refused (R420). -/
theorem step_read_refused {s : State} {width : Nat} {off : Addr} {rest : List Event} (hactive : s.cmdActive = true)
    (hp : s.pending = .read width off :: rest) (hother : ¬ (width = 4 ∧ off = 0x008#19)) :
    step s = .refused .accessWhileActive := by
  simp [step, hp, hostEvent, hactive, isStatusRead, hother]

/-- While CMD_ACTIVE = 1 a write is refused (R420). -/
theorem step_write_refused {s : State} {width : Nat} {off : Addr} {v : Word} {rest : List Event}
    (hactive : s.cmdActive = true) (hp : s.pending = .write width off v :: rest) :
    step s = .refused .accessWhileActive := by
  simp [step, hp, hostEvent, hactive]

/-- A read of STATUS is answered whether or not a command is active (R420). -/
theorem step_read_status {s : State} {rest : List Event} (hp : s.pending = .read 4 0x008#19 :: rest) :
    step s = .next (State.answer s.statusWord { s with pending := rest }) := by
  have hstatus : isStatusRead 4 0x008#19 = true := rfl
  simp only [step, hp, hostEvent, hstatus, Bool.not_true, Bool.and_false]
  rfl

end Sys2Proof.Machine

namespace Sys2Proof.Proofs

open Sys2Proof.Machine

/-- Settles O9: the bus raises the error at an illegal target alone, and the map's illegal targets are what is no legal access
(`target_eq_illegal`). -/
theorem illegalAccessIsABusError : Obligations.IllegalAccessIsABusError := by
  unfold Obligations.IllegalAccessIsABusError
  refine fun s rest width off v hidle => ⟨fun hp => ?_, fun hp => ?_⟩
  · rw [step_read hidle hp, hostRead_eq_hostBusError, target_eq_illegal]
  · rw [step_write hidle hp, hostWrite_eq_hostBusError, target_eq_illegal]

/-- Settles O58: every reserved access reaches the map's reserved target (`target_reservedAccess`). -/
theorem reservedOffsetsReadZeroAndIgnoreWrites : Obligations.ReservedOffsetsReadZeroAndIgnoreWrites := by
  unfold Obligations.ReservedOffsetsReadZeroAndIgnoreWrites
  intro s rest width off v hidle _ haccess
  have htarget := target_reservedAccess haccess
  refine ⟨fun hp => ?_, fun hp => ?_⟩
  · rw [step_read hidle hp, hostRead_reserved (s := { s with pending := rest }) htarget]
    rfl
  · rw [step_write hidle hp, hostWrite_reserved (s := { s with pending := rest }) htarget]

/-- Settles O14: of what a step can do with a read pending there is only the answer. -/
theorem hostReadHasNoSideEffect : Obligations.HostReadHasNoSideEffect := by
  unfold Obligations.HostReadHasNoSideEffect
  intro s t rest width off hp h
  rcases step_cases h with ⟨hnil, -⟩ | ⟨e, rest', hp', hcase⟩
  · cases hp.symm.trans hnil
  obtain ⟨rfl, rfl⟩ := List.cons.inj (hp.symm.trans hp')
  rcases hcase with ⟨w, off', v, -, rfl⟩ | ⟨w, off', v, he, -⟩ | ⟨bs, he, -⟩ | ⟨he, -⟩
  · exact ⟨v, rfl⟩
  · cases he
  · cases he
  · cases he

/-- Settles O8: the three kinds of host access while CMD_ACTIVE = 1. -/
theorem accessWhileActiveIsRefused : Obligations.AccessWhileActiveIsRefused := by
  unfold Obligations.AccessWhileActiveIsRefused
  intro s e rest hactive hp
  refine ⟨?_, ?_, ?_⟩
  · rintro width off rfl hother
    exact step_read_refused hactive hp hother
  · rintro width off v rfl
    exact step_write_refused hactive hp
  · rintro rfl
    exact step_read_status hp

end Sys2Proof.Proofs
end

section
/-! PROOFS. CTRL as a word (10_state R33), and CLEAR beside power-on (70_reset_and_hazards section 1): first the bits of CTRL
and what a host write leaves of it, then the registers and buffers after CLEAR, then the two statements. -/

namespace Sys2Proof.Machine

/-! ### CTRL -/

/-- CTRL bit by bit (R33): MASK_EN, STARTED, and zeros above them. -/
theorem State.ctrlWord_getLsbD (s : State) (i : Nat) :
    s.ctrlWord.getLsbD i = if i < 2 then [s.maskEn, s.started].getD i false else false := by
  change BitVec.getLsbD (w := 30 + 1 + 1) (_ ++ _) i = _
  simp only [BitVec.getLsbD_append]
  obtain hflag | ⟨j, rfl⟩ : i < 2 ∨ ∃ j, i = j + 2 := by
    by_cases h : i < 2
    · exact .inl h
    · exact .inr ⟨i - 2, by omega⟩
  · interval_cases i <;> simp
  · simp

/-- Bits 31:2 of CTRL read 0 (R33). -/
theorem State.ctrlWord_reserved (s : State) : s.ctrlWord.extractLsb' 2 30 = 0#30 := by
  apply BitVec.eq_of_getLsbD_eq
  intro i hi
  rw [BitVec.getLsbD_extractLsb', State.ctrlWord_getLsbD, if_neg (by omega)]
  simp

/-- A host write of CTRL is read back in its two fields, and 0 elsewhere (R33, R84). -/
theorem State.ctrlWord_writeCtrl (v : Word) (s : State) : (s.writeCtrl v).ctrlWord = v &&& 0x00000003#32 := by
  apply BitVec.eq_of_getLsbD_eq
  intro i hi
  rw [State.ctrlWord_getLsbD, BitVec.getLsbD_and]
  interval_cases i <;> simp

/-- A host write of CTRL reaches CTRL (R84). -/
theorem hostWrite_ctrl (run : Word → State → Result) (v : Word) (s : State) :
    hostWrite run 4 0x000#19 v s = .next (s.writeCtrl v) := rfl

/-! ### CLEAR beside power-on -/

/-- CLEAR leaves every register but CTRL and KEY_STAGE as power-on does (R342, R400). -/
theorem State.readRegister_clear_finish (s : State) {r : Register} (hctrl : r ≠ .ctrl) (hstage : r ≠ .keyStage) :
    s.clear.finish.readRegister r = s.powerOn.readRegister r := by
  cases r
  case ctrl => exact absurd rfl hctrl
  case keyStage => exact absurd rfl hstage
  all_goals rfl

end Sys2Proof.Machine

namespace Sys2Proof.Proofs

open Sys2Proof.Machine

/-- Settles O16: the fields are read off CTRL bit by bit; a write stores its two low bits (`State.ctrlWord_writeCtrl`); power-on
clears both fields and CLEAR the second. -/
theorem ctrlHasItsFields : Obligations.CtrlHasItsFields := by
  unfold Obligations.CtrlHasItsFields
  intro s
  have bit := s.ctrlWord_getLsbD
  refine ⟨⟨bit 0, bit 1, s.ctrlWord_reserved⟩, fun v rest hidle hp => ?_, fun rest hp => ?_, ?_⟩
  · exact ⟨_, (step_write hidle hp).trans (hostWrite_ctrl _ _ _), State.ctrlWord_writeCtrl _ _⟩
  · exact ⟨_, step_powerOn hp, State.ctrlWord_stopped rfl rfl⟩
  · exact ⟨_, exec_clear s, rfl, rfl⟩

/-- Settles O53: register by register CLEAR is power-on but for CTRL and KEY_STAGE, and it writes no buffer. -/
theorem clearMatchesPowerOn : Obligations.ClearMatchesPowerOn := by
  unfold Obligations.ClearMatchesPowerOn
  exact fun s => ⟨_, exec_clear s, fun r => s.readRegister_clear_finish, rfl, rfl, rfl, fun b i => rfl⟩

end Sys2Proof.Proofs
end

section
/-! PROOFS. SHA-1's padding and the accept key (43_handshake_key R300, R302, R310 to R312): first Base64 of any byte string of
3n + 2 bytes, then the four statements. -/

namespace Sys2Proof.Machine

/-! ### Base64 -/

/-- The four 6-bit values of a group of three bytes (R310). -/
def base64Values (a b c : Byte) : List (BitVec 6) :=
  let x : BitVec 24 := a ++ b ++ c
  [x.extractLsb' 18 6, x.extractLsb' 12 6, x.extractLsb' 6 6, x.extractLsb' 0 6]

/-- A group's characters are those of its values (R310). -/
theorem base64Group_eq_map (a b c : Byte) : base64Group a b c = (base64Values a b c).map base64Char := rfl

/-- The last value of the last group is completed with two zero bits: it is a multiple of 4 (R310). -/
theorem toNat_append_zero_mod (x : BitVec 4) : (x ++ 0#2 : BitVec 6).toNat % 4 = 0 := by
  revert x
  decide

/-- Base64 of 3n + 2 bytes is 4n + 3 characters of the alphabet, the last of a multiple of 4, and the padding (R310). -/
theorem base64_eq_map (n : Nat) (m : List Byte) (hm : m.length = 3 * n + 2) :
    ∃ (vs : List (BitVec 6)) (v : BitVec 6), vs.length = 4 * n + 2 ∧ v.toNat % 4 = 0 ∧
      base64 m = vs.map base64Char ++ [base64Char v, base64Pad] := by
  induction n generalizing m with
  | zero =>
    obtain ⟨a, b, rfl⟩ := List.length_eq_two.1 hm
    exact ⟨[_, _], _, rfl, toNat_append_zero_mod (b.extractLsb' 0 4), rfl⟩
  | succ n ih =>
    obtain _ | ⟨a, _ | ⟨b, _ | ⟨c, rest⟩⟩⟩ := m
    · simp at hm
    · simp at hm
    · simp at hm
    · obtain ⟨vs, v, hlen, hv, hrest⟩ := ih rest (by simp only [List.length_cons] at hm; omega)
      refine ⟨base64Values a b c ++ vs, v, ?_, hv, ?_⟩
      · have hfour : (base64Values a b c).length = 4 := rfl
        rw [List.length_append, hfour, hlen]
        omega
      · rw [base64, hrest, base64Group_eq_map, List.map_append, List.append_assoc]

/-- The accept key: 26 characters of the alphabet, one of a multiple of 4, and the padding (R290, R311). -/
theorem acceptKey_eq_map (key : List Byte) :
    ∃ (vs : List (BitVec 6)) (v : BitVec 6), vs.length = 26 ∧ v.toNat % 4 = 0 ∧
      acceptKey key = vs.map base64Char ++ [base64Char v, base64Pad] :=
  base64_eq_map 6 _ (sha1_length _)

/-! ### The padding -/

/-- The padded message's length (R302). -/
theorem sha1Pad_length (m : List Byte) : (sha1Pad m).length = m.length + 1 + padZeros m.length + 8 := by
  simp only [sha1Pad, bigEndian8, List.length_append, List.length_cons, List.length_replicate, List.length_nil]
  omega

/-- The zero bytes bring the length to 56 modulo 64 (R302). -/
theorem padZeros_mod (l : Nat) : (l + 1 + padZeros l) % 64 = 56 := by
  unfold padZeros
  omega

/-- No fewer zero bytes do (R302). -/
theorem padZeros_le {l y : Nat} (hy : (l + 1 + y) % 64 = 56) : padZeros l ≤ y := by
  unfold padZeros
  omega

end Sys2Proof.Machine

namespace Sys2Proof.Proofs

open Sys2Proof.Machine

/-- Settles O46: the number of zero bytes is `padZeros`, which reaches 56 modulo 64 and is the least that does; a key's message
is 36 bytes longer than the key. -/
theorem sha1PaddingIsMinimal : Obligations.Sha1PaddingIsMinimal := by
  unfold Obligations.Sha1PaddingIsMinimal
  refine ⟨fun m => ⟨padZeros m.length, ?_, padZeros_mod _, fun y => padZeros_le, ?_⟩, fun key hkey => ?_⟩
  · simp only [sha1Pad, List.append_assoc, List.cons_append, List.nil_append]
  · have hmod := padZeros_mod m.length
    rw [sha1Pad_length]
    omega
  · have hguid : guid.length = 36 := rfl
    rw [sha1Pad_length, List.length_append, hguid, padZeros]
    split_ifs <;> omega

/-- Settles O47: the accept key is Base64 of 20 = 3 · 6 + 2 bytes (`acceptKey_eq_map`), read off by position. -/
theorem acceptKeyHasItsShape : Obligations.AcceptKeyHasItsShape := by
  unfold Obligations.AcceptKeyHasItsShape
  intro key
  obtain ⟨vs, v, hlen, hv, hkey⟩ := acceptKey_eq_map key
  have hmap : (vs.map base64Char).length = 26 := by rw [List.length_map, hlen]
  have hlast : (acceptKey key)[26]? = some (base64Char v) := by
    rw [hkey, List.getElem?_append_right hmap.le, hmap]
    rfl
  refine ⟨acceptKey_length key, ?_, ⟨v, hv, hlast⟩, fun j hj => ?_⟩
  · rw [hkey, List.getElem?_append_right (by omega), hmap]
    rfl
  · obtain hlt | rfl : j < 26 ∨ j = 26 := by omega
    · have hthere : j < vs.length := hlt.trans_eq hlen.symm
      refine ⟨vs[j], ?_⟩
      rw [hkey, List.getElem?_append_left (hlt.trans_eq hmap.symm), List.getElem?_map, List.getElem?_eq_getElem hthere,
        Option.map_some]
    · exact ⟨v, hlast⟩

/-- Settles O49: with KEY_MAX and the key's bytes the same, DERIVE_KEY refuses in both states or reads the same key in both, and
stores its accept key. -/
theorem acceptKeyDependsOnTheKeyAlone : Obligations.AcceptKeyDependsOnTheKeyAlone := by
  unfold Obligations.AcceptKeyDependsOnTheKeyAlone
  intro s u s' u' n hmax hsame hs hu
  rcases execDeriveKey_cases n s with ⟨hlong, he⟩ | ⟨-, i, -, he⟩ | ⟨hshort, key, hlen, hr, he⟩ <;> cases he.symm.trans hs
  · cases (exec_deriveKey_tooLong (hmax ▸ hlong)).symm.trans hu
    exact ⟨rfl, nofun⟩
  · have hr' : Memory.readBytes u.keyin 0 n = .ok key := by
      obtain ⟨-, hread⟩ := Memory.readBytes_eq_ok.1 hr
      refine Memory.readBytes_eq_ok.2 ⟨hlen, fun j hj => ?_⟩
      have hj' := hsame j hj
      rw [← hread j hj, Nat.zero_add]
      exact hj'.symm
    cases (exec_deriveKey_derived (hmax ▸ hshort) hr').symm.trans hu
    refine ⟨rfl, fun _ j hj => ?_⟩
    rw [readBuf_accept_writeBytes, readBuf_accept_writeBytes, acceptKey_length, if_pos hj, if_pos hj]

/-- Settles O48: the source's key, by evaluation of SHA-1, Base64 and the machine. -/
theorem rfcAcceptKeyVector : Obligations.RfcAcceptKeyVector := by
  unfold Obligations.RfcAcceptKeyVector
  exact ⟨by decide +kernel, _, rfl, by decide +kernel⟩

end Sys2Proof.Proofs
end

section
/-! PROOFS. The invariant (10_state R59): first each of its three parts, as it reads the state and as an operation keeps it,
then the invariant through a command and through a step, then the two statements. -/

namespace Sys2Proof.Machine

open Sys2Proof.Claims

/-! ### The buffers -/

/-- A buffer is canonical and lies within a capacity (R49 to R53). -/
def Memory.Fits (m : Memory) (cap : Nat) : Prop := m.wf ∧ ∀ c ∈ m, c.1 < cap

/-- A buffer with nothing written fits any capacity. -/
theorem Memory.fits_nil (cap : Nat) : Memory.Fits [] cap := ⟨Memory.nil_wf, by simp⟩

/-- A write of a byte within the capacity keeps the buffer within it. -/
theorem Memory.Fits.write {m : Memory} {cap i : Nat} (h : Memory.Fits m cap) (hi : i < cap) (b : Byte) :
    Memory.Fits (Memory.write m i b) cap := by
  obtain ⟨hwf, hrange⟩ := h
  refine ⟨Memory.write_wf i b hwf, fun c hc => ?_⟩
  obtain rfl | hold := Memory.mem_write hc
  · exact hi
  · exact hrange c hold

/-- A run of writes that ends within the capacity keeps the buffer within it. -/
theorem Memory.Fits.writeBytes {m : Memory} {cap : Nat} {bs : List Byte} (h : Memory.Fits m cap)
    (hbs : bs.length ≤ cap) : Memory.Fits (Memory.writeBytes m 0 bs) cap := by
  obtain ⟨hwf, hrange⟩ := h
  refine ⟨Memory.writeBytes_wf 0 bs hwf, fun c hc => ?_⟩
  obtain ⟨-, hnew⟩ | hold := Memory.mem_writeBytes hc
  · omega
  · exact hrange c hold

/-- The buffers' part of the invariant, buffer by buffer. -/
theorem State.buffersOk_iff {s : State} : s.BuffersOk ↔ ∀ b, Memory.Fits (s.buffer b) (bufferCapacity s.cfg b) :=
  ⟨fun h b => ⟨h.canonical b, h.inRange b⟩, fun h => ⟨fun b => (h b).1, fun b => (h b).2⟩⟩

/-- A state with the same parameters that differs in one buffer, which fits, meets the buffers' part too. -/
theorem State.BuffersOk.of_buffer {s t : State} (h : s.BuffersOk) (hcfg : t.cfg = s.cfg) (b : Buffer)
    (hb : Memory.Fits (t.buffer b) (bufferCapacity s.cfg b)) (hother : ∀ b', b' ≠ b → t.buffer b' = s.buffer b') :
    t.BuffersOk := by
  refine State.buffersOk_iff.2 fun b' => ?_
  rw [hcfg]
  by_cases hb' : b' = b
  · rw [hb']
    exact hb
  · rw [hother b' hb']
    exact State.buffersOk_iff.1 h b'

/-! ### What the parts read -/

/-- The buffers' part reads the parameters and the buffers alone. -/
theorem State.BuffersOk.of_eq {s t : State} (h : s.BuffersOk) (hcfg : t.cfg = s.cfg)
    (hbuf : ∀ b, t.buffer b = s.buffer b) : t.BuffersOk := by
  refine State.buffersOk_iff.2 fun b => ?_
  rw [hcfg, hbuf]
  exact State.buffersOk_iff.1 h b

/-- The inbound part reads the parameters, RXBUF and the receive slot's registers alone. -/
theorem State.InboundOk.of_eq {s t : State} (h : s.InboundOk) (hcfg : t.cfg = s.cfg) (hbuf : t.rxbuf = s.rxbuf)
    (hlen : t.rxLen = s.rxLen) (hdlen : t.rxDlen = s.rxDlen) (hvalid : t.rxValid = s.rxValid) : t.InboundOk := by
  obtain ⟨hle, hwritten, hdeclared⟩ := h
  exact ⟨by rwa [hlen, hcfg], by rwa [hbuf, hlen], by rwa [hvalid, hlen, hdlen, hcfg]⟩

/-- An emptied receive slot meets the inbound part. -/
theorem State.inboundOk_of_empty {t : State} (hlen : t.rxLen = 0) (hvalid : t.rxValid = false) : t.InboundOk := by
  refine ⟨?_, ⟨[], ?_⟩, fun h => ?_⟩
  · rw [hlen]
    exact Nat.zero_le _
  · rw [hlen]
    rfl
  · rw [hvalid] at h
    cases h

/-- The outbound part reads the parameters, TXBUF and the send slot's registers alone. -/
theorem State.OutboundOk.of_eq {s t : State} (h : s.OutboundOk) (hcfg : t.cfg = s.cfg) (hbuf : t.txbuf = s.txbuf)
    (hlen : t.txLen = s.txLen) (hbusy : t.txBusy = s.txBusy) : t.OutboundOk := by
  obtain ⟨hle, htwo, hframe⟩ := h
  exact ⟨by rwa [hlen, hcfg], by rwa [hbusy, hlen], by rwa [hbusy, hcfg, hbuf, hlen]⟩

/-- A free send slot meets the outbound part whatever frame was last in it. -/
theorem State.outboundOk_of_free {t : State} (hlen : t.txLen.toNat ≤ t.cfg.txCap + 8) (hbusy : t.txBusy = false) :
    t.OutboundOk := by
  refine ⟨hlen, fun h => ?_, fun h => ?_⟩ <;>
  · rw [hbusy] at h
    cases h

/-- Everything the invariant reads: a state that agrees with one that meets it on these meets it too. -/
theorem State.Inv.of_eq {s t : State} (h : s.Inv) (hcfg : t.cfg = s.cfg) (hbuf : ∀ b, t.buffer b = s.buffer b)
    (hrx : t.rxLen = s.rxLen ∧ t.rxDlen = s.rxDlen ∧ t.rxValid = s.rxValid)
    (htx : t.txLen = s.txLen ∧ t.txBusy = s.txBusy) (hidle : t.cmdActive = false) : t.Inv where
  legal := by
    rw [hcfg]
    exact h.legal
  buffers := h.buffers.of_eq hcfg hbuf
  inbound := h.inbound.of_eq hcfg (hbuf .rxbuf) hrx.1 hrx.2.1 hrx.2.2
  outbound := h.outbound.of_eq hcfg (hbuf .txbuf) htx.1 htx.2
  idle := hidle

/-! ### Reset -/

/-- The state after reset meets the invariant, for every legal parameter value (R400). -/
theorem State.inv_resetWith {c : Config} (hc : c.Legal) : (State.resetWith c).Inv where
  legal := hc
  buffers := State.buffersOk_iff.2 fun b => by cases b <;> exact Memory.fits_nil _
  inbound := State.inboundOk_of_empty rfl rfl
  outbound := State.outboundOk_of_free (Nat.zero_le _) rfl
  idle := rfl

/-- Power-on leaves a state that meets the invariant: it keeps nothing the invariant reads but the parameters. -/
theorem State.Inv.powerOn {s : State} (h : s.Inv) : s.powerOn.Inv :=
  (State.inv_resetWith h.legal).of_eq rfl (fun _ => rfl) ⟨rfl, rfl, rfl⟩ ⟨rfl, rfl⟩ rfl

/-! ### Host writes -/

/-- A host write within KEYIN keeps the invariant (R87). -/
theorem State.Inv.write_keyin {s : State} (h : s.Inv) {i : Nat} (hi : i < s.cfg.keyMax) (b : Byte) :
    State.Inv { s with keyin := Memory.write s.keyin i b } where
  legal := h.legal
  buffers := h.buffers.of_buffer rfl .keyin ((State.buffersOk_iff.1 h.buffers .keyin).write hi b) fun b' hb' => by
    cases b'
    case keyin => exact absurd rfl hb'
    all_goals rfl
  inbound := h.inbound.of_eq rfl rfl rfl rfl rfl
  outbound := h.outbound.of_eq rfl rfl rfl rfl
  idle := h.idle

/-- A host write within PIN keeps the invariant (R87). -/
theorem State.Inv.write_pin {s : State} (h : s.Inv) {i : Nat} (hi : i < s.cfg.txCap) (b : Byte) :
    State.Inv { s with pin := Memory.write s.pin i b } where
  legal := h.legal
  buffers := h.buffers.of_buffer rfl .pin ((State.buffersOk_iff.1 h.buffers .pin).write hi b) fun b' hb' => by
    cases b'
    case pin => exact absurd rfl hb'
    all_goals rfl
  inbound := h.inbound.of_eq rfl rfl rfl rfl rfl
  outbound := h.outbound.of_eq rfl rfl rfl rfl
  idle := h.idle

/-! ### Commands -/

/-- Ending a command with a code keeps the invariant. -/
theorem State.Inv.raise {s : State} (h : s.Inv) (c : Status) : (s.raise c).Inv :=
  h.of_eq rfl (fun _ => rfl) ⟨rfl, rfl, rfl⟩ ⟨rfl, rfl⟩ rfl

/-- A frame read into RXBUF keeps the invariant: RX_LEN counts the bytes written (R59, R207). -/
theorem State.Inv.received {s : State} (h : s.Inv) {n : Nat} {bs : List Byte} {hdr dlen : BitVec 16} {mkey : Word}
    {valid : Bool} {c : Status} (hbs : bs.length ≤ s.cfg.rxCap)
    (hvalid : valid = true → dlen = BitVec.ofNat 16 bs.length) :
    (Machine.received n bs hdr dlen mkey valid c s).Inv where
  legal := h.legal
  buffers := h.buffers.of_buffer rfl .rxbuf ((State.buffersOk_iff.1 h.buffers .rxbuf).writeBytes hbs) fun b' hb' => by
    cases b'
    case rxbuf => exact absurd rfl hb'
    all_goals rfl
  inbound := by
    have hlen := received_rxLen_toNat (n := n) (hdr := hdr) (dlen := dlen) (mkey := mkey) (valid := valid) (c := c)
      h.legal hbs
    refine ⟨hlen.trans_le hbs, ⟨bs, ?_⟩, fun hv => ?_⟩
    · rw [hlen]
      exact Memory.readBytes_writeBytes s.rxbuf 0 bs
    · obtain rfl := hvalid hv
      exact ⟨rfl, hlen.trans_le hbs⟩
  outbound := h.outbound.of_eq rfl rfl rfl rfl
  idle := rfl

/-- DECODE keeps the invariant. -/
theorem State.Inv.receiveFrame {s : State} (h : s.Inv) : (receiveFrame s).Inv := by
  rcases receiveFrame_cases s with ⟨c, hs, -⟩ | ⟨-, -, n, bs, hdr, dlen, mkey, valid, c, hs, -, hbs, hvalid⟩ <;> rw [hs]
  · exact h.raise c
  · exact h.received hbs fun hv => (hvalid hv).2

/-- A wire instruction keeps the invariant: it is DECODE of a longer stream. -/
theorem State.Inv.receiveHeader {s : State} (h : s.Inv) (f r1 r2 r3 : Bool) (op : FrameOpcode) :
    (receiveHeader f r1 r2 r3 op s).Inv :=
  State.Inv.receiveFrame (h.of_eq rfl (fun _ => rfl) ⟨rfl, rfl, rfl⟩ ⟨rfl, rfl⟩ h.idle)

/-- A frame of the encode rule fits TXBUF, and its size TX_LEN (R48, R50, R254). -/
theorem buildFrame_length_le (op : FrameOpcode) (m : Bool) (k : Word) (p : List Byte) :
    2 ≤ (buildFrame op m k p).length ∧ (buildFrame op m k p).length ≤ p.length + 8 := by
  rw [buildFrame_length]
  split_ifs <;> omega

/-- ENCODE keeps the invariant: the queued frame is one of the encode rule (R59, R252). -/
theorem State.Inv.queueFrame {s : State} (h : s.Inv) (op : FrameOpcode) (m : Bool) (k : Word) {p : List Byte}
    (hp : p.length ≤ s.cfg.txCap) : (s.queueFrame (buildFrame op m k p)).Inv := by
  obtain ⟨htwo, hmax⟩ := buildFrame_length_le op m k p
  obtain ⟨-, htx, -⟩ := h.legal
  have hlen : (s.queueFrame (buildFrame op m k p)).txLen.toNat = (buildFrame op m k p).length :=
    queueFrame_txLen_toNat s (by omega)
  refine ⟨h.legal, h.buffers.of_buffer rfl .txbuf ?_ fun b' hb' => ?_, h.inbound.of_eq rfl rfl rfl rfl rfl,
    ⟨?_, fun _ => htwo.trans_eq hlen.symm, fun _ => ⟨op, m, k, p, hp, ?_⟩⟩, h.idle⟩
  · exact (State.buffersOk_iff.1 h.buffers .txbuf).writeBytes (hmax.trans (Nat.add_le_add_right hp 8))
  · cases b'
    case txbuf => exact absurd rfl hb'
    all_goals rfl
  · rw [hlen]
    exact hmax.trans (Nat.add_le_add_right hp 8)
  · rw [hlen]
    exact Memory.readBytes_writeBytes s.txbuf 0 _

/-- FLUSH keeps the invariant: it frees the send slot and leaves TX_LEN (R260). -/
theorem State.Inv.sendFrame {s : State} (h : s.Inv) (f : List Byte) : (s.sendFrame f).Inv := by
  obtain ⟨sent, answers, draws, c, hs⟩ := sendFrame_flushed f s
  rw [hs]
  exact ⟨h.legal, h.buffers.of_eq rfl fun _ => rfl, h.inbound.of_eq rfl rfl rfl rfl rfl,
    State.outboundOk_of_free h.outbound.txLenLe rfl, rfl⟩

/-- A run of at most 28 bytes written to ACCEPT keeps the invariant (R53, R300). -/
theorem State.Inv.write_accept {s : State} (h : s.Inv) {bs : List Byte} (hbs : bs.length ≤ 28) :
    State.Inv { s with accept := Memory.writeBytes s.accept 0 bs } where
  legal := h.legal
  buffers := h.buffers.of_buffer rfl .accept ((State.buffersOk_iff.1 h.buffers .accept).writeBytes hbs) fun b' hb' => by
    cases b'
    case accept => exact absurd rfl hb'
    all_goals rfl
  inbound := h.inbound.of_eq rfl rfl rfl rfl rfl
  outbound := h.outbound.of_eq rfl rfl rfl rfl
  idle := h.idle

/-- CLEAR keeps the invariant: it empties both slots and keeps the buffers (R342, R343). -/
theorem State.Inv.clear {s : State} (h : s.Inv) : s.clear.Inv :=
  ⟨h.legal, h.buffers.of_eq rfl fun _ => rfl, State.inboundOk_of_empty rfl rfl,
    State.outboundOk_of_free (Nat.zero_le _) rfl, h.idle⟩

/-- DRAIN keeps the invariant: it empties the receive slot (R220). -/
theorem State.Inv.drain {s : State} (h : s.Inv) : State.Inv { s with rxValid := false, rxLen := 0 } :=
  ⟨h.legal, h.buffers.of_eq rfl fun _ => rfl, State.inboundOk_of_empty rfl rfl,
    h.outbound.of_eq rfl rfl rfl rfl, h.idle⟩

/-- Every command keeps the invariant. -/
theorem State.Inv.exec {i : Instr} {s t : State} (h : s.Inv) (hx : exec i s = .next t) : t.Inv := by
  rcases exec_next hx with ⟨op, f, r1, r2, r3, -, rfl⟩ | ⟨-, rfl⟩ | ⟨c, -, rfl⟩ | ⟨-, rfl⟩ | ⟨op, p, -, -, hp, -, rfl⟩ |
    ⟨f, -, -, -, -, -, rfl⟩ | ⟨-, rfl⟩ | ⟨key, -, -, -, rfl⟩ | ⟨-, rfl⟩
  · exact h.receiveHeader f r1 r2 r3 op
  · exact h.receiveFrame
  · exact h.raise c
  · exact h.drain.raise .ok
  · exact (h.queueFrame op s.maskEn s.maskKey hp).raise .ok
  · exact h.sendFrame f
  · exact h.of_eq rfl (fun _ => rfl) ⟨rfl, rfl, rfl⟩ ⟨rfl, rfl⟩ rfl
  · exact (h.write_accept (acceptKey_length key).le).raise .ok
  · exact h.clear.raise .ok

/-- Taking an input off the list keeps the invariant: it reads none of the inputs to come. -/
theorem State.Inv.take_pending {s : State} (h : s.Inv) (rest : List Event) : State.Inv { s with pending := rest } :=
  h.of_eq rfl (fun _ => rfl) ⟨rfl, rfl, rfl⟩ ⟨rfl, rfl⟩ h.idle

/-- Every step keeps the invariant. -/
theorem State.Inv.step {s t : State} (h : s.Inv) (hs : step s = .next t) : t.Inv := by
  rcases step_cases hs with ⟨-, rfl⟩ | ⟨e, rest, -, hcase⟩
  · exact h
  have h' := h.take_pending rest
  rcases hcase with ⟨w, off, v, -, rfl⟩ | ⟨w, off, v, -, -, hw⟩ | ⟨bs, -, rfl⟩ | ⟨-, rfl⟩
  · exact h'.of_eq rfl (fun _ => rfl) ⟨rfl, rfl, rfl⟩ ⟨rfl, rfl⟩ h'.idle
  · rcases hw with rfl | rfl | ⟨-, -, rfl⟩ | ⟨j, b, hj, rfl⟩ | ⟨j, b, hj, rfl⟩ | ⟨-, -, hx⟩
    · exact h'
    · exact h'.of_eq rfl (fun _ => rfl) ⟨rfl, rfl, rfl⟩ ⟨rfl, rfl⟩ h'.idle
    · exact h'.of_eq rfl (fun _ => rfl) ⟨rfl, rfl, rfl⟩ ⟨rfl, rfl⟩ h'.idle
    · exact h'.write_keyin hj b
    · exact h'.write_pin hj b
    · rw [exec_beginCommand] at hx
      exact h'.exec hx
  · exact h'.of_eq rfl (fun _ => rfl) ⟨rfl, rfl, rfl⟩ ⟨rfl, rfl⟩ h'.idle
  · exact h'.powerOn

end Sys2Proof.Machine

namespace Sys2Proof.Proofs

open Sys2Proof.Machine

/-- Settles O55: each input and each command keeps each part of the invariant (`State.Inv.step`, `State.Inv.exec`). -/
theorem everyStepKeepsTheInvariant : Obligations.EveryStepKeepsTheInvariant := by
  unfold Obligations.EveryStepKeepsTheInvariant
  exact fun s t h => h.step

/-- Settles O56: after reset every buffer and both slots are empty. -/
theorem resetMeetsTheInvariant : Obligations.ResetMeetsTheInvariant := by
  unfold Obligations.ResetMeetsTheInvariant
  exact ⟨fun c => State.inv_resetWith, State.inv_resetWith (by decide)⟩

end Sys2Proof.Proofs
end

section
/-! PROOFS. Frames on the wire: first a frame at the front of the receive stream and its fields as the decoder reads them,
then what DECODE delivers of it, then the send side, then the statements about wire instructions, ENCODE, FLUSH and the round trip. -/

namespace Sys2Proof.Machine

open Sys2Proof.Claims

/-! ### The header bytes -/

/-- The named fields of RX_HDR where it holds a base header byte (R44, R121). -/
theorem State.rxHdr_fields_of_headerByte {t : State} {f r1 r2 r3 : Bool} {op : FrameOpcode} {b1 : Byte}
    (h : t.rxHdr = bigEndian16 (headerByte f r1 r2 r3 op) b1) :
    t.rxFin = f ∧ t.rxRsv1 = r1 ∧ t.rxRsv2 = r2 ∧ t.rxRsv3 = r3 ∧ t.rxOpcode = op ∧ t.rxMasked = b1Masked b1 := by
  have fields := t.rxHdr_fields
  rw [h, bigEndian16_high, bigEndian16_low] at fields
  obtain ⟨hfin, h1, h2, h3, hop, hmasked, -⟩ := fields
  refine ⟨hfin.trans (b0Fin_headerByte f r1 r2 r3 op), h1.trans (b0Rsv1_headerByte f r1 r2 r3 op),
    h2.trans (b0Rsv2_headerByte f r1 r2 r3 op), h3.trans (b0Rsv3_headerByte f r1 r2 r3 op), ?_, hmasked⟩
  rw [← FrameOpcode.ofBits_bits t.rxOpcode, hop]
  exact b0Opcode_headerByte f r1 r2 r3 op

/-- MASK is read back from the second header byte (R122). -/
@[simp] theorem b1Masked_lengthByte (m : Bool) (n : Nat) : b1Masked (lengthByte m n) = m := by
  cases m <;> simp [b1Masked, lengthByte]

/-- LEN7 is read back from the second header byte, if it fits (R122). -/
theorem b1Len7_lengthByte (m : Bool) {n : Nat} (hn : n < 128) : b1Len7 (lengthByte m n) = n := by
  have field : (lengthByte m n).extractLsb' 0 7 = BitVec.ofNat 7 n := by
    apply BitVec.eq_of_getLsbD_eq
    intro i hi
    have h8 : i < 8 := by omega
    simp [lengthByte, hi, h8]
  rw [b1Len7, field]
  exact Nat.mod_eq_of_lt hn

/-! ### A frame at the front of the stream -/

/-- A frame on the wire (R121 to R127): base header byte, length fields, key, and payload bytes as they are sent. -/
def wireFrame (b0 : Byte) (m : Bool) (k : Word) (q : List Byte) : List Byte :=
  b0 :: (lengthFields m q.length ++ (frameKey m k ++ q))

/-- An outbound frame is a frame on the wire whose payload is masked with its key (R252). -/
theorem buildFrame_eq_wireFrame (op : FrameOpcode) (m : Bool) (k : Word) (p : List Byte) :
    buildFrame op m k p = wireFrame (headerByte true false false false op) m k (framePayload m k p) := by
  cases m
  · rfl
  · rw [wireFrame, framePayload, if_pos rfl, maskXor_length]
    rfl

@[simp] theorem framePayload_length (m : Bool) (k : Word) (p : List Byte) : (framePayload m k p).length = p.length := by
  cases m
  · rfl
  · exact maskXor_length p k

/-- The key of a frame as DECODE keeps it: zero for an unmasked one (R206). -/
def wireKey (m : Bool) (k : Word) : Word := if m then k else 0

/-- Unmasking with a frame's own key gives its payload back. -/
theorem maskXor_framePayload (m : Bool) (k : Word) (p : List Byte) : maskXor (framePayload m k p) (wireKey m k) = p := by
  cases m
  · exact maskXor_zero p
  · exact maskXor_maskXor p k

section
variable {s : State} {b0 : Byte} {m : Bool} {k : Word} {q rest : List Byte}
  (hs : s.rxs = wireFrame b0 m k q ++ rest)
include hs

/-- The first byte of the stream is the frame's base header byte. -/
theorem streamByte_zero_of_wireFrame : streamByte s 0 = b0 := by
  rw [streamByte, hs]
  rfl

/-- The second byte of the stream: MASK, and the length or 126 (R122, R127). -/
theorem streamByte_one_of_wireFrame :
    streamByte s 1 = lengthByte m (if q.length ≤ 125 then q.length else 126) := by
  rw [streamByte, hs, wireFrame, lengthFields]
  split_ifs <;> rfl

/-- MASK of the frame at the front. -/
theorem b1Masked_of_wireFrame : b1Masked (streamByte s 1) = m := by
  rw [streamByte_one_of_wireFrame hs, b1Masked_lengthByte]

/-- LEN7 of the frame at the front. -/
theorem b1Len7_of_wireFrame : b1Len7 (streamByte s 1) = if q.length ≤ 125 then q.length else 126 := by
  rw [streamByte_one_of_wireFrame hs, b1Len7_lengthByte]
  split_ifs <;> omega

/-- The decoder reads the frame's own length (R126, R127). -/
theorem declaredLength_of_wireFrame (hlen : q.length < 65536) : declaredLength s = q.length := by
  rw [declaredLength, b1Len7_of_wireFrame hs]
  by_cases hshort : q.length ≤ 125
  · rw [if_pos hshort, if_neg (by omega)]
  · have hhigh : streamByte s 2 = BitVec.ofNat 8 (q.length / 256) := by
      rw [streamByte, hs, wireFrame, lengthFields, if_neg hshort]
      rfl
    have hlow : streamByte s 3 = BitVec.ofNat 8 q.length := by
      rw [streamByte, hs, wireFrame, lengthFields, if_neg hshort]
      rfl
    rw [if_neg hshort, if_pos rfl, hhigh, hlow, BitVec.toNat_ofNat, BitVec.toNat_ofNat]
    omega

/-- The key begins after the length fields (R124). -/
theorem keyOffset_of_wireFrame : keyOffset s = 1 + (lengthFields m q.length).length := by
  rw [keyOffset, b1Len7_of_wireFrame hs, lengthFields_length]
  split_ifs <;> omega

/-- From the key on the stream holds the key, the payload and what follows. -/
theorem drop_keyOffset_of_wireFrame : s.rxs.drop (keyOffset s) = frameKey m k ++ (q ++ rest) := by
  rw [keyOffset_of_wireFrame hs, hs, wireFrame, Nat.add_comm, List.cons_append, List.drop_succ_cons, List.append_assoc,
    List.drop_left, List.append_assoc]

/-- The header ends after the key (R124, R125). -/
theorem frontHeader_of_wireFrame : frontHeader s = keyOffset s + (frameKey m k).length := by
  rw [frontHeader_eq, b1Masked_of_wireFrame hs, frameKey_length]

/-- After the header the stream holds the payload and what follows. -/
theorem drop_frontHeader_of_wireFrame : s.rxs.drop (frontHeader s) = q ++ rest := by
  rw [frontHeader_of_wireFrame hs, ← List.drop_drop, drop_keyOffset_of_wireFrame hs, List.drop_left]

/-- The stream holds the frame's header, its payload and what follows. -/
theorem length_of_wireFrame : s.rxs.length = frontHeader s + q.length + rest.length := by
  rw [frontHeader_of_wireFrame hs, keyOffset_of_wireFrame hs, hs, wireFrame]
  simp only [List.length_append, List.length_cons]
  omega

/-- The decoder reads the frame's own key (R206). -/
theorem frontKey_of_wireFrame : frontKey s = wireKey m k := by
  have hm := b1Masked_of_wireFrame hs
  cases m with
  | false => exact frontKey_of_unmasked hm
  | true =>
    have hbyte : ∀ j < 4, streamByte s (keyOffset s + j) = keyByte k j := by
      intro j hj
      rw [streamByte, List.getD_eq_getElem?_getD, ← List.getElem?_drop, drop_keyOffset_of_wireFrame hs,
        List.getElem?_append_left hj]
      exact congrArg (Option.getD · 0) (keyBytes_getElem? k hj)
    rw [frontKey, if_pos hm, frontHeader_of_masked hm]
    change packKey (streamByte s (keyOffset s + 0)) (streamByte s (keyOffset s + 1)) (streamByte s (keyOffset s + 2))
      (streamByte s (keyOffset s + 3)) = k
    rw [hbyte 0 (by decide), hbyte 1 (by decide), hbyte 2 (by decide), hbyte 3 (by decide), packKey_keyBytes]

/-- Byte `i` of the payload as it is sent stands in the stream after the header. -/
theorem streamByte_payload_of_wireFrame {i : Nat} {b : Byte} (hb : q[i]? = some b) :
    streamByte s (frontHeader s + i) = b := by
  obtain ⟨hi, -⟩ := List.getElem?_eq_some_iff.1 hb
  rw [streamByte, List.getD_eq_getElem?_getD, ← List.getElem?_drop, drop_frontHeader_of_wireFrame hs,
    List.getElem?_append_left hi, hb, Option.getD_some]

end

/-! ### What DECODE delivers of it -/

/-- The frame is delivered (R212): this payload in RXBUF, these header bytes and this key in their registers, and the stream
left at what follows the frame. -/
structure Delivered (t : State) (b0 b1 : Byte) (key : Word) (p rest : List Byte) : Prop where
  err : t.err = .ok
  rxValid : t.rxValid = true
  rxLen : t.rxLen.toNat = p.length
  rxDlen : t.rxDlen.toNat = p.length
  rxHdr : t.rxHdr = bigEndian16 b0 b1
  rxMkey : t.rxMkey = key
  payload : Memory.readBytes t.rxbuf 0 p.length = .ok p
  rxs : t.rxs = rest

/-- DECODE gets to the payload of a frame at the front of a started machine's stream; a masked one needs MASK_AVAIL_MIN bytes
from its key on (R201 to R206). -/
theorem payloadReached_of_wireFrame {s : State} {b0 : Byte} {m : Bool} {k : Word} {q rest : List Byte}
    (hc : s.cfg.Legal) (hst : s.started = true) (hs : s.rxs = wireFrame b0 m k q ++ rest)
    (havail : m = true → s.cfg.maskAvailMin ≤ 4 + q.length + rest.length) : PayloadReached s := by
  have hlen := length_of_wireFrame hs
  have hoff : keyOffset s ≤ frontHeader s := by
    rw [frontHeader_eq]
    exact Nat.le_add_right _ _
  refine ⟨hc, ⟨hst, ?_⟩, ?_, fun h126 => ?_, fun hm => ?_⟩
  · have htwo : 2 ≤ keyOffset s := Nat.le_add_right _ _
    omega
  · rw [b1Len7_of_wireFrame hs]
    split_ifs <;> omega
  · rw [keyOffset, if_pos h126] at hoff
    omega
  · have hmin := havail ((b1Masked_of_wireFrame hs).symm.trans hm)
    rw [frontHeader_of_masked hm] at hlen ⊢
    omega

/-- A frame of at most RX_CAP payload bytes at the front of a started machine's stream is delivered unmasked (R212). -/
theorem receiveFrame_delivers {s : State} {b0 : Byte} {m : Bool} {k : Word} {q rest : List Byte}
    (hc : s.cfg.Legal) (hst : s.started = true) (hs : s.rxs = wireFrame b0 m k q ++ rest)
    (hcap : q.length ≤ s.cfg.rxCap) (havail : m = true → s.cfg.maskAvailMin ≤ 4 + q.length + rest.length) :
    Delivered (receiveFrame s) b0 (streamByte s 1) (wireKey m k) (maskXor q (wireKey m k)) rest := by
  have h := payloadReached_of_wireFrame hc hst hs havail
  have hlen := length_of_wireFrame hs
  have hdecl : declaredLength s = q.length := by
    obtain ⟨⟨-, hrx⟩, -⟩ := hc
    exact declaredLength_of_wireFrame hs (by omega)
  obtain ⟨t, hx, hvalid, herr, hrxLen, hrxDlen, hhdr, hmkey, hrxs, hbuf⟩ :=
    Proofs.decodeDeliversTheFrame s h.legal h.header h.supported h.extended h.key (by omega) (by omega)
  rw [exec_decode] at hx
  cases hx
  rw [hdecl] at hrxLen hrxs hbuf
  rw [streamByte_zero_of_wireFrame hs] at hhdr
  rw [frontKey_of_wireFrame hs] at hmkey hbuf
  refine ⟨herr, hvalid, ?_, ?_, hhdr, hmkey, ?_, ?_⟩
  · rw [hrxLen, maskXor_length]
  · rw [hrxDlen, hrxLen, maskXor_length]
  · refine Memory.readBytes_eq_ok.2 ⟨rfl, fun i hi => ?_⟩
    rw [maskXor_length] at hi
    have hb := List.getElem?_eq_getElem hi
    rw [Nat.zero_add, maskXor_getElem?, hb, Option.map_some, ← streamByte_payload_of_wireFrame hs hb]
    exact hbuf i hi
  · rw [hrxs, ← List.drop_drop, drop_frontHeader_of_wireFrame hs, List.drop_left]

/-- The same of a wire instruction, whose header byte is put in front of the stream (log 10). -/
theorem receiveHeader_delivers {s : State} {f r1 r2 r3 m : Bool} {op : FrameOpcode} {k : Word} {q rest : List Byte}
    (hc : s.cfg.Legal) (hst : s.started = true)
    (hs : headerByte f r1 r2 r3 op :: s.rxs = wireFrame (headerByte f r1 r2 r3 op) m k q ++ rest)
    (hcap : q.length ≤ s.cfg.rxCap) (havail : m = true → s.cfg.maskAvailMin ≤ 4 + q.length + rest.length) :
    ∃ b1, Delivered (receiveHeader f r1 r2 r3 op s) (headerByte f r1 r2 r3 op) b1 (wireKey m k)
      (maskXor q (wireKey m k)) rest :=
  ⟨_, receiveFrame_delivers (s := { s with rxs := headerByte f r1 r2 r3 op :: s.rxs }) hc hst hs hcap havail⟩

/-! ### The send side -/

/-- FLUSH with the transport's next answer `ok` sends the whole frame (R94, R260). -/
theorem exec_flush_of_ok {s : State} {answers : List TxAnswer} {f : List Byte} (hst : s.started = true)
    (hb : s.txBusy = true) (ha : s.txAnswers = .ok :: answers)
    (hr : Memory.readBytes s.txbuf 0 s.txLen.toNat = .ok f) :
    exec .flush s = .next (flushed f answers s.txDraws .ok s) := by
  rw [exec_flush_queued hst hb hr]
  simp only [State.sendFrame, State.txWrite, State.drawTxAnswer, ha]
  rfl

/-- FLUSH with the transport's next answer `err` after `j` bytes sends those (R94, R260). -/
theorem exec_flush_of_err {s : State} {answers : List TxAnswer} {f : List Byte} {j : Nat} (hst : s.started = true)
    (hb : s.txBusy = true) (ha : s.txAnswers = .err j :: answers)
    (hr : Memory.readBytes s.txbuf 0 s.txLen.toNat = .ok f) (hj : j < f.length) :
    exec .flush s = .next (flushed (f.take j) answers s.txDraws .transportError s) := by
  have hsent : sentBytes (.err j) f = f.take j := by rw [sentBytes, min_eq_left (by omega)]
  rw [exec_flush_queued hst hb hr]
  simp only [State.sendFrame, State.txWrite, State.drawTxAnswer, ha, hsent]
  rfl

/-- A queued frame of the encode rule is read back whole from TXBUF (R252, R260). -/
theorem readBytes_queueFrame {s : State} {f : List Byte} (hf : f.length < 2 ^ 17) :
    Memory.readBytes (s.queueFrame f).finish.txbuf 0 (s.queueFrame f).finish.txLen.toNat = .ok f := by
  rw [State.finish_txLen, queueFrame_txLen_toNat s hf]
  exact Memory.readBytes_writeBytes s.txbuf 0 f

/-- ENCODE and FLUSH with the transport's answer `ok` put the built frame in the transmit log. -/
theorem txs_of_encode_of_flush {s s1 s2 : State} {op : FrameOpcode} {p : List Byte} {answers : List TxAnswer}
    (hc : s.cfg.Legal) (hst : s.started = true) (hb : s.txBusy = false) (ha : s.txAnswers = .ok :: answers)
    (hcap : p.length ≤ s.cfg.txCap) (hpin : Memory.readBytes s.pin 0 p.length = .ok p)
    (henc : exec (.encode op p.length) s = .next s1) (hflush : exec .flush s1 = .next s2) :
    s2.txs = s.txs ++ buildFrame op s.maskEn s.maskKey p := by
  rw [exec_encode_queued hb hcap hpin] at henc
  cases henc
  have hsize : (buildFrame op s.maskEn s.maskKey p).length < 2 ^ 17 := by
    obtain ⟨-, hmax⟩ := buildFrame_length_le op s.maskEn s.maskKey p
    obtain ⟨-, htx, -⟩ := hc
    omega
  have hrun := exec_flush_of_ok (s := (s.queueFrame (buildFrame op s.maskEn s.maskKey p)).finish) hst rfl ha
    (readBytes_queueFrame hsize)
  cases hrun.symm.trans hflush
  rfl

end Sys2Proof.Machine

namespace Sys2Proof.Proofs

open Sys2Proof.Machine Sys2Proof.Claims

/-- Settles O57: the log of the sender is the frame of the encode rule, which is a frame on the wire
(`buildFrame_eq_wireFrame`); the receiver delivers it (`receiveFrame_delivers`), and unmasking with its own key gives the
payload back (`maskXor_framePayload`). -/
theorem encodeFlushDecodeRoundTrip : Obligations.EncodeFlushDecodeRoundTrip := by
  unfold Obligations.EncodeFlushDecodeRoundTrip
  intro s s1 s2 r op p more answers hsc hrc hst hbusy hanswers htxs htx hrx hpin havail henc hflush hrst hrxs
  have hs : r.rxs = wireFrame (headerByte true false false false op) s.maskEn s.maskKey
      (framePayload s.maskEn s.maskKey p) ++ more := by
    rw [hrxs, txs_of_encode_of_flush hsc hst hbusy hanswers htx hpin henc hflush, htxs, List.nil_append,
      buildFrame_eq_wireFrame]
  have hq : (framePayload s.maskEn s.maskKey p).length = p.length := framePayload_length _ _ p
  have hdel := receiveFrame_delivers hrc hrst hs (hq.trans_le hrx) (by rwa [hq])
  rw [maskXor_framePayload] at hdel
  obtain ⟨herr, hvalid, hlen, hdlen, hhdr, hmkey, hpayload, hrest⟩ := hdel
  obtain ⟨hfin, -, -, -, hop, hmasked⟩ := State.rxHdr_fields_of_headerByte hhdr
  rw [b1Masked_of_wireFrame hs] at hmasked
  exact ⟨_, exec_decode r, herr, hvalid, hpayload, hlen, hdlen, hop, hfin, hmasked, hmkey, hrest⟩

/-- Settles O34: with its header byte in front the stream begins with an unmasked frame, which is delivered
(`receiveFrame_delivers`); what DECODE leaves unchanged is `receiveFrame_frame` and `receiveFrame_readBuf`. -/
theorem frameOfAnyOpcodeIsDelivered : Obligations.FrameOfAnyOpcodeIsDelivered := by
  unfold Obligations.FrameOfAnyOpcodeIsDelivered
  intro op f r1 r2 r3 s p rest hc hst hshort hcap hrxs
  have hs : headerByte f r1 r2 r3 op :: s.rxs = wireFrame (headerByte f r1 r2 r3 op) false 0 p ++ rest := by
    rw [hrxs, wireFrame, lengthFields, if_pos hshort]
    rfl
  obtain ⟨b1, hdel⟩ := receiveHeader_delivers hc hst hs hcap (fun h => absurd h Bool.false_ne_true)
  rw [wireKey, if_neg Bool.false_ne_true, maskXor_zero] at hdel
  obtain ⟨herr, hvalid, hlen, hdlen, hhdr, hmkey, hpayload, hrest⟩ := hdel
  obtain ⟨hfin, h1, h2, h3, hop, -⟩ := State.rxHdr_fields_of_headerByte hhdr
  exact ⟨_, exec_frameInstr op f r1 r2 r3 s, herr, hvalid, hop, hfin, h1, h2, h3, hlen, hdlen, hmkey, hpayload, hrest,
    fun i hi => receiveHeader_readBuf hc (hlen.trans_le hi), receiveHeader_frame f r1 r2 r3 op s⟩

/-- Settles O59: a header that is read stays in RX_HDR whatever becomes of the frame (`receiveFrame_rxHdr`), and its fields are
those of the header byte. -/
theorem frameInstructionIsRecorded : Obligations.FrameInstructionIsRecorded := by
  unfold Obligations.FrameInstructionIsRecorded
  intro op f r1 r2 r3 s b1 rest hst hrxs
  have hhdr : (receiveHeader f r1 r2 r3 op s).rxHdr = bigEndian16 (headerByte f r1 r2 r3 op) b1 :=
    receiveFrame_rxHdr hst (congrArg (List.cons _) hrxs)
  obtain ⟨hfin, h1, h2, h3, hop, -⟩ := State.rxHdr_fields_of_headerByte hhdr
  exact ⟨_, exec_frameInstr op f r1 r2 r3 s, hfin, h1, h2, h3, hop, by rw [hhdr, bigEndian16_low]⟩

/-- Settles O41: the listed answer decides what FLUSH sends (`exec_flush_of_ok`, `exec_flush_of_err`). -/
theorem everyTransportAnswerIsPossible : Obligations.EveryTransportAnswerIsPossible := by
  unfold Obligations.EveryTransportAnswerIsPossible
  intro s f answers hst hb hr
  exact ⟨⟨_, exec_flush_of_ok hst hb rfl hr, rfl, rfl⟩, fun j hj => ⟨_, exec_flush_of_err hst hb rfl hr hj, rfl, rfl⟩⟩

/-- Settles O39: ENCODE ended OK, so it queued the built frame, whose size is `buildFrame_length`. -/
theorem encodedFrameSize : Obligations.EncodedFrameSize := by
  unfold Obligations.EncodedFrameSize
  intro s t op len hc hb hx herr
  change execEncode op len s = _ at hx
  rcases execEncode_cases op len s with ⟨hbusy, -⟩ | ⟨-, -, he⟩ | ⟨-, -, j, -, he⟩ | ⟨-, hcap, p, rfl, -, he⟩
  · cases hb.symm.trans hbusy
  · cases he.symm.trans hx
    cases herr
  · cases he.symm.trans hx
  · cases he.symm.trans hx
    obtain ⟨htwo, hmax⟩ := buildFrame_length_le op s.maskEn s.maskKey p
    obtain ⟨-, htx, -⟩ := hc
    rw [State.finish_txLen, queueFrame_txLen_toNat s (by omega)]
    exact ⟨buildFrame_length op s.maskEn s.maskKey p, htwo, by omega⟩

end Sys2Proof.Proofs
end
